-- ==== Sys2Proof/Word.lean ====
section
/-! DEFINITION. The words the part carries: a byte of a cell, a 16-bit and a 32-bit count. -/

namespace Sys2Proof

/-- One byte of a cell, an address, a tag or a sequence. -/
abbrev Byte := BitVec 8

/-- A capture number (R81): a count modulo 65,536. -/
abbrev Word16 := BitVec 16

/-- A 32-bit count: statistics counters, bins, hit counts and the line time (R59, R200, R208). -/
abbrev Word32 := BitVec 32

end Sys2Proof
end

