-- ==== Sys2Proof/Syntax.lean ====
section
/-! DEFINITION. The commands of the part: one constructor of `Instr` per row of spec/opcode_table.json. -/

namespace Sys2Proof

/-- The two link ports (R182). -/
inductive Side where
  | head
  | tail
  deriving DecidableEq, Repr

/-- How a request reaches the management block (R153): addressed to the part (its own address, or 0xFE
while it is UNASSIGNED), or broadcast to 0xFF. -/
inductive Form where
  | addressed
  | broadcast
  deriving DecidableEq, Repr

/-- The commands. A command of the link carries the symbol's port and byte; a request carries how it was
addressed, its tag (payload byte 1) and its arguments (the payload bytes from byte 2 on, R215). -/
inductive Instr where
  /-- RESETN is released, or power is applied (R210). -/
  | powerOnReset
  /-- Signal is detected on a port's receive pair (R184). -/
  | signalDetected (p : Side)
  /-- Signal is lost on a port's receive pair (R184). -/
  | lossOfSignal (p : Side)
  /-- An alignment word arrives on a port (R184, R188). -/
  | alignmentWord (p : Side)
  /-- A data byte arrives on a port (R188). -/
  | dataByte (p : Side) (b : Byte)
  /-- A symbol that cannot be decoded arrives on a port (R190). -/
  | codeViolation (p : Side)
  /-- A start delimiter arrives on Tail (R97). -/
  | startOfCell
  /-- The sixth header byte arrives on Tail (R99). -/
  | headerComplete (b : Byte)
  /-- The last byte the key needs arrives on Tail (R101). -/
  | keyComplete (b : Byte)
  /-- An end delimiter arrives on Tail (R103). -/
  | endOfCell
  /-- A start delimiter arrives on Head (R193). -/
  | headStartOfCell
  /-- The sixth header byte arrives on Head (R193). -/
  | headHeaderComplete (b : Byte)
  /-- An end delimiter arrives on Head (R194). -/
  | headEndOfCell
  /-- The Head transmit arbiter's grant (R120 to R123). -/
  | transmitStart
  /-- The last byte and the end delimiter of the cell on Head have left (R124). -/
  | transmitComplete
  /-- The start of a transmission on Tail (R196). -/
  | tailTransmitStart
  /-- The end of a whole transmission on Tail (R196). -/
  | tailTransmitComplete
  /-- The common refill timer expires (R46). -/
  | refillExpiry
  /-- The timer of the SENT record with this sequence expires (R143). -/
  | reportTimerExpiry (seq : Byte)
  | ping (f : Form) (tag : Byte) (args : List Byte)
  | identRead (f : Form) (tag : Byte) (args : List Byte)
  | addressAssign (f : Form) (tag : Byte) (args : List Byte)
  | settingWrite (f : Form) (tag : Byte) (args : List Byte)
  | settingRead (f : Form) (tag : Byte) (args : List Byte)
  | entryWrite (f : Form) (tag : Byte) (args : List Byte)
  | entryRead (f : Form) (tag : Byte) (args : List Byte)
  | batchActivate (f : Form) (tag : Byte) (args : List Byte)
  | entryRetire (f : Form) (tag : Byte) (args : List Byte)
  | batchRetire (f : Form) (tag : Byte) (args : List Byte)
  | batchDiscard (f : Form) (tag : Byte) (args : List Byte)
  | actionWrite (f : Form) (tag : Byte) (args : List Byte)
  | actionRead (f : Form) (tag : Byte) (args : List Byte)
  | actionClear (f : Form) (tag : Byte) (args : List Byte)
  | meterWrite (f : Form) (tag : Byte) (args : List Byte)
  | meterRead (f : Form) (tag : Byte) (args : List Byte)
  | binruleWrite (f : Form) (tag : Byte) (args : List Byte)
  | binruleRead (f : Form) (tag : Byte) (args : List Byte)
  | binsRead (f : Form) (tag : Byte) (args : List Byte)
  | binsReadClear (f : Form) (tag : Byte) (args : List Byte)
  | binsClear (f : Form) (tag : Byte) (args : List Byte)
  | captureFetch (f : Form) (tag : Byte) (args : List Byte)
  | captureRelease (f : Form) (tag : Byte) (args : List Byte)
  | reportAck (f : Form) (tag : Byte) (args : List Byte)
  | statsRead (f : Form) (tag : Byte) (args : List Byte)
  | statsClear (f : Form) (tag : Byte) (args : List Byte)
  | deviceReset (f : Form) (tag : Byte) (args : List Byte)
  /-- One microsecond of the time base has passed (R208). -/
  | lineTimeTick
  /-- RESETN has gone low for `ns` nanoseconds (R210). -/
  | resetnHeldLow (ns : Nat)
  deriving DecidableEq, Repr

end Sys2Proof
end

