-- ==== Sys2Proof/Decode.lean ====
section
/-! DEFINITION. The command a word spells. No row of spec/opcode_table.json gives bits, so no word spells one
(log 17); the codes and layouts of request cells (R211 to R217) stand with the taking of a request. -/

namespace Sys2Proof

/-- The command spelled by the `nbits` bits of `w`: none, for no row of the table has bits. -/
def decodeTableWord (_nbits _w : Nat) : Option Instr := none

end Sys2Proof
end

