-- ==== Sys2Proof/Machine/Flags.lean ====
section
/-! DEFINITION. The two checks of a cell, and the saturating addition of the part's counts. -/

namespace Sys2Proof.Machine

/-- One data bit into a check register (R214). -/
def crcBit {w : Nat} (poly reg : BitVec w) (d : Bool) : BitVec w :=
  if reg.msb == d then reg <<< 1 else (reg <<< 1) ^^^ poly

/-- One byte into a check register, from bit 7 to bit 0 (R214). -/
def crcByte {w : Nat} (poly reg : BitVec w) (b : Byte) : BitVec w :=
  [7, 6, 5, 4, 3, 2, 1, 0].foldl (fun r i => crcBit poly r (b.getLsbD i)) reg

/-- The check register after the covered bytes, in order (R214). -/
def crcBytes {w : Nat} (poly init : BitVec w) (bs : List Byte) : BitVec w :=
  bs.foldl (crcByte poly) init

/-- The header check of the first five header bytes (R214). -/
def headerCheck (bs : List Byte) : Byte := crcBytes 0x07#8 0x00#8 bs

/-- The payload check of all payload bytes (R214). -/
def payloadCheck (bs : List Byte) : Word16 := crcBytes 0x1021#16 0xFFFF#16 bs

/-- The greatest value of a 32-bit count. -/
def countMax : Word32 := 0xFFFFFFFF#32

/-- A saturating count raised by `n` (R11, R44, R61, R68). -/
def satAdd (w : Word32) (n : Nat) : Word32 :=
  if w.toNat + n ≤ 4294967295 then w + BitVec.ofNat 32 n else countMax

end Sys2Proof.Machine
end

