-- ==== Sys2Proof/Config.lean ====
section
/-! DEFINITION. What the part's build fixes: its capacities, its identity, and the two values the spec leaves
open. -/

namespace Sys2Proof

/-- The pool's buffers (R94). -/
def Config.poolBuffers : Nat := 24

/-- The records a capture ring holds (R81). -/
def Config.captureRecords : Nat := 8

/-- The records the report queue holds, WAITING and SENT together (R136). -/
def Config.reportRecords : Nat := 16

/-- The most records that may be SENT (R136, R139). -/
def Config.sentWindow : Nat := 4

/-- The replies the reply queue holds (R152). -/
def Config.replyPlaces : Nat := 4

/-- The records the reply memory holds (R157). -/
def Config.memoryPlaces : Nat := 4

/-- The downstream buffers (R195). -/
def Config.downBuffers : Nat := 4

/-- DESIGN CHOICE (log 11). R210 does not fix whether a low pulse on RESETN of at least 100 ns and under 1 µs
resets the part: this answers for the pulse's index and its length in nanoseconds, and has no body. -/
opaque Config.shortPulseResets : Nat → Nat → Bool

/-- DESIGN CHOICE (log 19). R183 stops a transmission that is cut short at the symbol reached, and no behaviour counts
symbol times: this answers, for the cut's index, how far it had come, and has no body. -/
opaque Config.symbolsReached : Nat → Nat

end Sys2Proof
end

