-- ==== Sys2Proof/Machine/State.lean ====
section
/-! DEFINITION. Everything the spec gives the part to hold, as plain data, and its values right after
power-on reset. -/

namespace Sys2Proof.Machine

/-! ### The match table (01) -/

/-- The four states of an entry (R8). -/
inductive EntryState where
  | empty
  | pending
  | live
  | retiring
  deriving DecidableEq, Repr

/-- The presence requirement of an entry (R2, R7). -/
inductive Presence where
  | any
  | bothPresent
  | anyAbsent
  deriving DecidableEq, Repr

/-- One entry of the match table (R2). -/
structure Entry where
  state : EntryState
  batch : Fin 8
  kindValue : BitVec 4
  kindCare : BitVec 4
  channelValue : BitVec 6
  channelCare : BitVec 6
  destValue : Byte
  destCare : Byte
  srcValue : Byte
  srcCare : Byte
  lengthMin : Nat
  lengthMax : Nat
  probe0Value : Byte
  probe0Care : Byte
  probe1Value : Byte
  probe1Care : Byte
  presence : Presence
  action : Fin 32
  firstHit : Bool
  hits : Word32
  deriving DecidableEq, Repr

/-- An EMPTY entry: every other field is 0 (R9). -/
def Entry.cleared : Entry where
  state := .empty
  batch := 0
  kindValue := 0
  kindCare := 0
  channelValue := 0
  channelCare := 0
  destValue := 0
  destCare := 0
  srcValue := 0
  srcCare := 0
  lengthMin := 0
  lengthMax := 0
  probe0Value := 0
  probe0Care := 0
  probe1Value := 0
  probe1Care := 0
  presence := .any
  action := 0
  firstHit := false
  hits := 0

/-! ### Action records (02) -/

/-- What an action does with the cell (R30). -/
inductive Disposition where
  | forward
  | discard
  | captureForward
  | captureDiscard
  deriving DecidableEq, Repr

/-- The upstream queue a kept cell joins (R30). -/
inductive CellClass where
  | urgent
  | normal
  deriving DecidableEq, Repr

/-- The five fields of an action record that a verdict copies (R39). -/
structure Action where
  disposition : Disposition
  cls : CellClass
  rewrite : Option (BitVec 6)
  meter : Option (Fin 16)
  rule : Option (Fin 8)
  deriving DecidableEq, Repr

/-- The fields of an undefined record (R31). -/
def Action.zero : Action := ⟨.forward, .urgent, none, none, none⟩

/-- The built-in default action of a miss with miss_action NONE (R13). -/
def Action.missDefault : Action := ⟨.forward, .normal, none, none, none⟩

/-- One action record (R30). -/
structure ActionRecord where
  defined : Bool
  act : Action
  refs : Nat
  deriving DecidableEq, Repr

/-- An undefined record that nothing names (R31, R43). -/
def ActionRecord.undefined : ActionRecord := ⟨false, Action.zero, 0⟩

/-! ### Meters (03) -/

/-- What an exceeding cell's verdict carries (R44). -/
inductive Policy where
  | drop
  | demote
  | pass
  deriving DecidableEq, Repr

/-- One meter (R44). -/
structure Meter where
  rate : Nat
  burst : Nat
  credit : Nat
  policy : Policy
  inExcess : Bool
  conform : Word32
  exceed : Word32
  deriving DecidableEq, Repr

/-- A meter after reset (R58). -/
def Meter.resetValue : Meter := ⟨0, 64, 64, .pass, false, 0, 0⟩

/-! ### Bin rules (04) -/

/-- Where a rule takes its value from (R61, R65). -/
inductive Source where
  | payloadByte
  | payloadWord
  | channel
  | src
  | length
  deriving DecidableEq, Repr

/-- How a value too large for the width is fitted (R61, R66). -/
inductive RangeMode where
  | wrap
  | clamp
  deriving DecidableEq, Repr

/-- The condition on one payload bit (R61, R64). -/
inductive Gate where
  | none
  | bitSet
  | bitClear
  deriving DecidableEq, Repr

/-- The amount added to a bin (R61, R68). -/
inductive Increment where
  | one
  | cellSize
  deriving DecidableEq, Repr

/-- The configuration of a bin rule: what a verdict copies (R40, R61). -/
structure BinConfig where
  enabled : Bool
  base : Nat
  width : Nat
  source : Source
  sourceOffset : Nat
  shift : Nat
  mode : RangeMode
  gate : Gate
  gateOffset : Nat
  gateBit : Nat
  increment : Increment
  deriving DecidableEq, Repr

/-- The configuration after reset (R79). -/
def BinConfig.resetValue : BinConfig :=
  ⟨false, 0, 0, .payloadByte, 0, 0, .wrap, .none, 0, 0, .one⟩

/-- One bin rule (R61). -/
structure BinRule where
  cfg : BinConfig
  counted : Word32
  gatedOut : Word32
  sourceAbsent : Word32
  deriving DecidableEq, Repr

/-- A bin rule after reset (R79). -/
def BinRule.resetValue : BinRule := ⟨BinConfig.resetValue, 0, 0, 0⟩

/-! ### The capture ring (05) -/

/-- What end-of-cell decided for a cell (R82, R104). -/
inductive CellOutcome where
  | forwardedUrgent
  | forwardedNormal
  | actionDiscarded
  | meterDropped
  | queueDropped
  deriving DecidableEq, Repr

/-- One capture record (R82): an absent entry is MISS, an absent action is DEFAULT. -/
structure CaptureRecord where
  number : Word16
  lineTime : Word32
  entry : Option (Fin 64)
  action : Option (Fin 32)
  outcome : CellOutcome
  header : List Byte
  payload : List Byte
  deriving DecidableEq, Repr

/-! ### Cells and the upstream reception (06, 12) -/

/-- A whole cell as a buffer holds it: six header bytes, the payload, and the two payload check bytes of a
cell with a payload (R94, R213). -/
abbrev Cell := List Byte

/-- The six values of a header (R213). -/
structure Header where
  kind : BitVec 4
  channel : BitVec 6
  length : Nat
  dest : Byte
  src : Byte
  seq : Byte
  deriving DecidableEq, Repr

/-- The meter outcome of a verdict (R50). -/
inductive MeterOutcome where
  | absent
  | conform
  | exceed (p : Policy)
  deriving DecidableEq, Repr

/-- The verdict (R96): an absent entry is MISS, an absent action position is DEFAULT. -/
structure Verdict where
  entry : Option (Fin 64)
  actionPos : Option (Fin 32)
  act : Action
  rule : Option (Fin 8 × BinConfig)
  meter : MeterOutcome
  cls : CellClass
  deriving DecidableEq, Repr

/-- What the reception record holds from header-complete on (R96): the header, the latched probe offsets, the
key-complete point as the number of payload bytes the key needs (R5), and the verdict, absent before
key-complete. -/
structure Latched where
  header : Header
  probe0Offset : Nat
  probe1Offset : Nat
  keyBytes : Nat
  verdict : Option Verdict
  deriving DecidableEq, Repr

/-- The reception record (R96): the bytes in its buffer, and what header-complete has set. -/
structure Reception where
  buf : List Byte
  hdr : Option Latched
  deriving DecidableEq, Repr

/-- The Tail receive state (R95). -/
inductive TailRx where
  | idle
  | receiving (r : Reception)
  | discarding
  deriving DecidableEq, Repr

/-! ### The Head transmitter (07) -/

/-- The source of the cell in transmission (R118). -/
inductive TxSource where
  | reply
  | urgent
  | report (seq : Byte)
  | normal
  | detached
  deriving DecidableEq, Repr

/-- The Head transmitter (R118): the transmission record and the bytes of the cell it holds. -/
inductive HeadTx where
  | idle
  | sending (src : TxSource) (cell : Cell)
  deriving DecidableEq, Repr

/-! ### Reports (08) -/

/-- The eight report kinds (R134). -/
inductive ReportKind where
  | meterExceeded
  | binSaturated
  | captureReady
  | captureLost
  | entryFirstHit
  | poolExhausted
  | linkChanged
  | resetDone
  deriving DecidableEq, Repr

/-- A WAITING record (R135). -/
structure WaitingReport where
  kind : ReportKind
  subject : Nat
  occurrences : Nat
  firstTime : Word32
  deriving DecidableEq, Repr

/-- The one condition of a SENT record (R135). -/
inductive SentCondition where
  | inTransmission
  | due
  | timing (deadline : Word32)
  deriving DecidableEq, Repr

/-- A SENT record (R135). -/
structure SentReport where
  kind : ReportKind
  subject : Nat
  occurrences : Nat
  firstTime : Word32
  seq : Byte
  sends : Nat
  cond : SentCondition
  deriving DecidableEq, Repr

/-! ### The management block (09) -/

/-- The ten statuses of a reply (R162). -/
inductive Status where
  | ok
  | badRequest
  | badLength
  | badIndex
  | badValue
  | entryBusy
  | inUse
  | undefinedAction
  | notFound
  | noCapture
  deriving DecidableEq, Repr

/-- A reply record of the reply queue (R152); the kind is the code as carried by the request. -/
structure Reply where
  kind : Byte
  tag : Byte
  status : Status
  results : List Byte
  resetMark : Bool
  inTransmission : Bool
  deriving DecidableEq, Repr

/-- A record of the reply memory (R152). -/
structure MemoryRecord where
  tag : Byte
  kind : Byte
  status : Status
  results : List Byte
  deriving DecidableEq, Repr

/-! ### Link ports and the downstream path (10) -/

/-- The symbols of the line, a code violation among them (R183). -/
inductive Symbol where
  | data (b : Byte)
  | startDelimiter
  | endDelimiter
  | alignment
  | violation
  deriving DecidableEq, Repr

/-- The link state of a port (R182). -/
inductive LinkState where
  | down
  | aligning
  | up
  deriving DecidableEq, Repr

/-- Where a receive side stands in the symbol stream (R182). -/
inductive FramingPosition where
  | between
  | inCell
  | hunting
  deriving DecidableEq, Repr

/-- The state of one link port (R182), with the count and the mark of the cell in reception (R188, R190) and
its two output pins (R185, R186, R210). -/
structure Port where
  link : LinkState
  run : Nat
  violations : Nat
  position : FramingPosition
  cellBytes : Nat
  cellBad : Bool
  upPin : Bool
  txDriven : Bool
  deriving DecidableEq, Repr

/-- A port right after power-on reset (R199, R210); cellBytes and cellBad are DESIGN CHOICE (log 10). -/
def Port.resetValue : Port := ⟨.down, 0, 0, .between, 0, false, false, true⟩

/-- The Head receive state with its receive buffer (R193). -/
inductive HeadRx where
  | idle
  | receiving (buf : List Byte)
  | discarding
  deriving DecidableEq, Repr

/-- The Tail transmitter (R196). -/
inductive TailTx where
  | idle
  | sending
  deriving DecidableEq, Repr

/-! ### Statistics and settings (11) -/

/-- The 25 statistics counters (R200). -/
structure Stats where
  started : Word32
  headerBad : Word32
  payloadBad : Word32
  rxAborted : Word32
  poolDropped : Word32
  actionDiscarded : Word32
  meterDropped : Word32
  queueDropped : Word32
  forwarded : Word32
  txAborted : Word32
  carried : Word32
  received : Word32
  taken : Word32
  forwardedDown : Word32
  droppedDown : Word32
  badDown : Word32
  txAbortedDown : Word32
  requestsTaken : Word32
  replays : Word32
  mgmtDropped : Word32
  broadcastFailed : Word32
  broadcastRefused : Word32
  reportsLost : Word32
  reportsAbandoned : Word32
  capturesLost : Word32
  deriving DecidableEq, Repr

/-- Every counter at 0, carried included (R205). -/
def Stats.zero : Stats :=
  ⟨0, 0, 0, 0, 0, 0, 0, 0, 0, 0, 0, 0, 0, 0, 0, 0, 0, 0, 0, 0, 0, 0, 0, 0, 0⟩

/-- The names of the counters that events raise (R200); carried is set, never raised. -/
inductive Counter where
  | started
  | headerBad
  | payloadBad
  | rxAborted
  | poolDropped
  | actionDiscarded
  | meterDropped
  | queueDropped
  | forwarded
  | txAborted
  | received
  | taken
  | forwardedDown
  | droppedDown
  | badDown
  | txAbortedDown
  | requestsTaken
  | replays
  | mgmtDropped
  | broadcastFailed
  | broadcastRefused
  | reportsLost
  | reportsAbandoned
  | capturesLost
  deriving DecidableEq, Repr

/-- The eight settings (R206): an absent missAction is NONE; bit n of reportEnable stands for kind code
n + 1. -/
structure Settings where
  missAction : Option (Fin 32)
  probe0Offset : Nat
  probe1Offset : Nat
  normalLimit : Nat
  refillInterval : Nat
  reportTimeout : Nat
  reportEnable : Byte
  starvationLimit : Nat
  deriving DecidableEq, Repr

/-- The defaults (R206, R207). -/
def Settings.defaults : Settings := ⟨none, 0, 1, 20, 100, 20, 0xFF#8, 16⟩

/-! ### The whole part -/

/-- The state of the part. The fields stand in the order of INVENTORY.md; headCut and tailCut are the symbols that had
left on a port of the transmission last cut short there (R183; log 19). -/
structure State where
  entries : Vector Entry 64
  actions : Vector ActionRecord 32
  meters : Vector Meter 16
  refillLeft : Nat
  bins : Vector Word32 1024
  rules : Vector BinRule 8
  captures : List CaptureRecord
  nextCapture : Word16
  freeBuffers : Nat
  tailRx : TailRx
  urgent : List Cell
  normal : List Cell
  headTx : HeadTx
  starvation : Nat
  waiting : List WaitingReport
  sent : List SentReport
  nextSequence : Byte
  lostSinceSent : Nat
  nodeAddress : Option Byte
  replies : List Reply
  memory : List MemoryRecord
  resetPending : Bool
  headPort : Port
  tailPort : Port
  headRx : HeadRx
  downQueue : List Cell
  tailTx : TailTx
  headCut : List Symbol
  tailCut : List Symbol
  stats : Stats
  settings : Settings
  lineTime : Word32
  resetHeld : Bool
  freeIndex : Nat
  pending : List Instr
  deriving DecidableEq, Repr

/-- Why a command stops the part: never. Every command of this block has a next state (INVENTORY, Faults), so
no reason is declared; safe. -/
inductive Fault where
  deriving DecidableEq, Repr

/-- Why a command has no meaning. -/
inductive Refusal where
  /-- Raised by an arm of `exec` whose command has no meaning yet: none is left. Safe. -/
  | notModelled (mnemonic : String)
  deriving DecidableEq, Repr

/-- The part right after power-on reset (R28, R43, R45, R58, R79, R92, R116, R132, R149, R181, R199, R205,
R207, R208), the RESET_DONE record of R149 included. -/
def State.reset : State where
  entries := Vector.replicate 64 Entry.cleared
  actions := Vector.replicate 32 ActionRecord.undefined
  meters := Vector.replicate 16 Meter.resetValue
  refillLeft := 100
  bins := Vector.replicate 1024 0
  rules := Vector.replicate 8 BinRule.resetValue
  captures := []
  nextCapture := 0
  freeBuffers := Config.poolBuffers
  tailRx := .idle
  urgent := []
  normal := []
  headTx := .idle
  starvation := 0
  waiting := [⟨.resetDone, 0, 1, 0⟩]
  sent := []
  nextSequence := 0
  lostSinceSent := 0
  nodeAddress := none
  replies := []
  memory := []
  resetPending := false
  headPort := Port.resetValue
  tailPort := Port.resetValue
  headRx := .idle
  downQueue := []
  tailTx := .idle
  headCut := []
  tailCut := []
  stats := Stats.zero
  settings := Settings.defaults
  lineTime := 0
  resetHeld := false
  freeIndex := 0
  pending := []

end Sys2Proof.Machine
end

