-- ==== Sys2Proof/Machine/Operands.lean ====
section
/-! DEFINITION. The layouts and codes of cells, requests and replies (12): every byte order and every code is
decided here, once. -/

namespace Sys2Proof.Machine

/-! ### Bytes of a payload (R211) -/

/-- The byte at an offset; an offset past the end reads as 0 (it is met only where a length check has passed). -/
def argByte (args : List Byte) (i : Nat) : Byte := args.getD i 0

/-- The byte at an offset as a number. -/
def argNat (args : List Byte) (i : Nat) : Nat := (argByte args i).toNat

/-- Two bytes at an offset as a number, most significant first (R211). -/
def argWord (args : List Byte) (i : Nat) : Nat := argNat args i * 256 + argNat args (i + 1)

/-- A number as one byte. -/
def byteOf (n : Nat) : Byte := BitVec.ofNat 8 n

/-- A number as two bytes, most significant first (R211). -/
def bytes16 (n : Nat) : List Byte := [byteOf (n / 256), byteOf n]

/-- A 32-bit count as four bytes, most significant first (R211). -/
def bytes32 (w : Word32) : List Byte :=
  [w.extractLsb' 24 8, w.extractLsb' 16 8, w.extractLsb' 8 8, w.extractLsb' 0 8]

/-- A yes/no field on output (R211). -/
def flagByte (b : Bool) : Byte := if b then 1 else 0

/-- A yes/no field on input: 1 is yes, 0 is no, any other code names neither (R211). -/
def yesNo (b : Byte) : Option Bool :=
  if b = 0 then some false else if b = 1 then some true else none

/-- The position `k` of a table of `n` places, if it names one. -/
def position (n k : Nat) : Option (Fin n) := if h : k < n then some ⟨k, h⟩ else none

/-- An argument that may be absent: present, it must name one of `n` values. -/
def optPosition (present : Bool) (n k : Nat) : Option (Option (Fin n)) :=
  if present then (position n k).map some else some none

/-! ### Codes (R211, R215, R217) -/

/-- Entry state codes (R211). -/
def EntryState.code : EntryState → Byte
  | .empty => 0
  | .pending => 1
  | .live => 2
  | .retiring => 3

/-- Presence codes (R211). -/
def Presence.code : Presence → Byte
  | .any => 0
  | .bothPresent => 1
  | .anyAbsent => 2

/-- The presence a code names (R211). -/
def presenceOf (b : Byte) : Option Presence :=
  if b = 0 then some .any else if b = 1 then some .bothPresent else if b = 2 then some .anyAbsent else none

/-- Disposition codes (R211). -/
def Disposition.code : Disposition → Byte
  | .forward => 0
  | .discard => 1
  | .captureForward => 2
  | .captureDiscard => 3

/-- The disposition a code names (R211). -/
def dispositionOf (b : Byte) : Option Disposition :=
  if b = 0 then some .forward else if b = 1 then some .discard
  else if b = 2 then some .captureForward else if b = 3 then some .captureDiscard else none

/-- Class codes (R211). -/
def CellClass.code : CellClass → Byte
  | .urgent => 0
  | .normal => 1

/-- The class a code names (R211). -/
def classOf (b : Byte) : Option CellClass :=
  if b = 0 then some .urgent else if b = 1 then some .normal else none

/-- Exceed policy codes (R211). -/
def Policy.code : Policy → Byte
  | .drop => 0
  | .demote => 1
  | .pass => 2

/-- The exceed policy a code names (R211). -/
def policyOf (b : Byte) : Option Policy :=
  if b = 0 then some .drop else if b = 1 then some .demote else if b = 2 then some .pass else none

/-- Bin source codes (R211). -/
def Source.code : Source → Byte
  | .payloadByte => 0
  | .payloadWord => 1
  | .channel => 2
  | .src => 3
  | .length => 4

/-- The bin source a code names (R211). -/
def sourceOf (b : Byte) : Option Source :=
  if b = 0 then some .payloadByte else if b = 1 then some .payloadWord else if b = 2 then some .channel
  else if b = 3 then some .src else if b = 4 then some .length else none

/-- Range mode codes (R211). -/
def RangeMode.code : RangeMode → Byte
  | .wrap => 0
  | .clamp => 1

/-- The range mode a code names (R211). -/
def rangeModeOf (b : Byte) : Option RangeMode :=
  if b = 0 then some .wrap else if b = 1 then some .clamp else none

/-- Gate codes (R211). -/
def Gate.code : Gate → Byte
  | .none => 0
  | .bitSet => 1
  | .bitClear => 2

/-- The gate a code names (R211). -/
def gateOf (b : Byte) : Option Gate :=
  if b = 0 then some .none else if b = 1 then some .bitSet else if b = 2 then some .bitClear else none

/-- Increment codes (R211). -/
def Increment.code : Increment → Byte
  | .one => 0
  | .cellSize => 1

/-- The increment a code names (R211). -/
def incrementOf (b : Byte) : Option Increment :=
  if b = 0 then some .one else if b = 1 then some .cellSize else none

/-- Capture outcome codes (R211). -/
def CellOutcome.code : CellOutcome → Byte
  | .forwardedUrgent => 0
  | .forwardedNormal => 1
  | .actionDiscarded => 2
  | .meterDropped => 3
  | .queueDropped => 4

/-- A position, or 0xFF for MISS, DEFAULT and the like (R211). -/
def positionCode {n : Nat} : Option (Fin n) → Byte
  | some i => byteOf i.val
  | none => 0xFF

/-- A node address, or 0x00 for UNASSIGNED (R211). -/
def addressCode : Option Byte → Byte
  | some a => a
  | none => 0

/-- Status codes (R215). -/
def Status.code : Status → Byte
  | .ok => 0
  | .badRequest => 1
  | .badLength => 2
  | .badIndex => 3
  | .badValue => 4
  | .entryBusy => 5
  | .inUse => 6
  | .undefinedAction => 7
  | .notFound => 8
  | .noCapture => 9

/-- Report kind codes (R217). -/
def ReportKind.code : ReportKind → Nat
  | .meterExceeded => 1
  | .binSaturated => 2
  | .captureReady => 3
  | .captureLost => 4
  | .entryFirstHit => 5
  | .poolExhausted => 6
  | .linkChanged => 7
  | .resetDone => 8

/-! ### Cells (R213, R214) -/

/-- The header kind MGMT_REQ (R211). -/
def kindMgmtReq : BitVec 4 := 3

/-- The header kind MGMT_RSP (R211). -/
def kindMgmtRsp : BitVec 4 := 4

/-- The header kind REPORT (R211). -/
def kindReport : BitVec 4 := 5

/-- The six values of the header at the front of a cell (R213). -/
def headerOf (buf : List Byte) : Header where
  kind := (argByte buf 0).extractLsb' 4 4
  channel := (argByte buf 0).extractLsb' 0 4 ++ (argByte buf 1).extractLsb' 6 2
  length := ((argByte buf 1).extractLsb' 0 6).toNat
  dest := argByte buf 2
  src := argByte buf 3
  seq := argByte buf 4

/-- The six bytes of a header, its check computed (R213, R214). -/
def headerBytes (h : Header) : List Byte :=
  let five : List Byte :=
    [h.kind ++ h.channel.extractLsb' 2 4, h.channel.extractLsb' 0 2 ++ BitVec.ofNat 6 h.length,
      h.dest, h.src, h.seq]
  five ++ [headerCheck five]

/-- Byte 5 agrees with the check of bytes 0 to 4 (R214). -/
def headerCheckPasses (buf : List Byte) : Bool := argByte buf 5 == headerCheck (buf.take 5)

/-- The payload bytes of a cell in a buffer, as many as the length gives. -/
def payloadOf (buf : List Byte) (length : Nat) : List Byte := (buf.drop 6).take length

/-- The cell with this header and payload: the payload check follows a payload that is not empty (R213). -/
def buildCell (h : Header) (payload : List Byte) : Cell :=
  headerBytes h ++ payload ++
    (if payload.isEmpty then [] else bytes16 (payloadCheck payload).toNat)

/-- The cell size that meters charge and CELL_SIZE adds (R47, R68). -/
def cellSize (length : Nat) : Nat := 6 + length + (if 0 < length then 2 else 0)

/-- A cell with its channel replaced and its header check recomputed (R41, R213). -/
def rewriteChannel (ch : BitVec 6) (buf : Cell) : Cell :=
  headerBytes { headerOf buf with channel := ch } ++ buf.drop 6

end Sys2Proof.Machine
end

