-- ==== Sys2Proof/Machine/Ops.lean ====
section
/-! DEFINITION. The operations the blocks share: the counters, the positions of the tables, the occurrences of
the report unit, the entry references and the held entry. -/

namespace Sys2Proof.Machine

/-- What a command's meaning does: a next state (no command of this block faults or refuses). -/
abbrev Result := Host.Outcome State Fault Refusal

/-! ### Statistics counters -/

/-- One counter raised by 1, modulo 2^32 (R200). -/
def Stats.raise (c : Counter) (t : Stats) : Stats :=
  match c with
  | .started => { t with started := t.started + 1 }
  | .headerBad => { t with headerBad := t.headerBad + 1 }
  | .payloadBad => { t with payloadBad := t.payloadBad + 1 }
  | .rxAborted => { t with rxAborted := t.rxAborted + 1 }
  | .poolDropped => { t with poolDropped := t.poolDropped + 1 }
  | .actionDiscarded => { t with actionDiscarded := t.actionDiscarded + 1 }
  | .meterDropped => { t with meterDropped := t.meterDropped + 1 }
  | .queueDropped => { t with queueDropped := t.queueDropped + 1 }
  | .forwarded => { t with forwarded := t.forwarded + 1 }
  | .txAborted => { t with txAborted := t.txAborted + 1 }
  | .received => { t with received := t.received + 1 }
  | .taken => { t with taken := t.taken + 1 }
  | .forwardedDown => { t with forwardedDown := t.forwardedDown + 1 }
  | .droppedDown => { t with droppedDown := t.droppedDown + 1 }
  | .badDown => { t with badDown := t.badDown + 1 }
  | .txAbortedDown => { t with txAbortedDown := t.txAbortedDown + 1 }
  | .requestsTaken => { t with requestsTaken := t.requestsTaken + 1 }
  | .replays => { t with replays := t.replays + 1 }
  | .mgmtDropped => { t with mgmtDropped := t.mgmtDropped + 1 }
  | .broadcastFailed => { t with broadcastFailed := t.broadcastFailed + 1 }
  | .broadcastRefused => { t with broadcastRefused := t.broadcastRefused + 1 }
  | .reportsLost => { t with reportsLost := t.reportsLost + 1 }
  | .reportsAbandoned => { t with reportsAbandoned := t.reportsAbandoned + 1 }
  | .capturesLost => { t with capturesLost := t.capturesLost + 1 }

/-- The value of one counter. -/
def Stats.value (c : Counter) (t : Stats) : Word32 :=
  match c with
  | .started => t.started
  | .headerBad => t.headerBad
  | .payloadBad => t.payloadBad
  | .rxAborted => t.rxAborted
  | .poolDropped => t.poolDropped
  | .actionDiscarded => t.actionDiscarded
  | .meterDropped => t.meterDropped
  | .queueDropped => t.queueDropped
  | .forwarded => t.forwarded
  | .txAborted => t.txAborted
  | .received => t.received
  | .taken => t.taken
  | .forwardedDown => t.forwardedDown
  | .droppedDown => t.droppedDown
  | .badDown => t.badDown
  | .txAbortedDown => t.txAbortedDown
  | .requestsTaken => t.requestsTaken
  | .replays => t.replays
  | .mgmtDropped => t.mgmtDropped
  | .broadcastFailed => t.broadcastFailed
  | .broadcastRefused => t.broadcastRefused
  | .reportsLost => t.reportsLost
  | .reportsAbandoned => t.reportsAbandoned
  | .capturesLost => t.capturesLost

/-- The state with one counter raised. -/
def State.count (c : Counter) (s : State) : State := { s with stats := s.stats.raise c }

/-! ### Tables by position -/

/-- The state with one entry replaced. -/
def State.setEntry (i : Fin 64) (e : Entry) (s : State) : State :=
  { s with entries := s.entries.set i.val e i.isLt }

/-- The state with one action record replaced. -/
def State.setRecord (a : Fin 32) (r : ActionRecord) (s : State) : State :=
  { s with actions := s.actions.set a.val r a.isLt }

/-- The state with one meter replaced. -/
def State.setMeter (m : Fin 16) (x : Meter) (s : State) : State :=
  { s with meters := s.meters.set m.val x m.isLt }

/-- The state with one bin rule replaced. -/
def State.setRule (n : Fin 8) (r : BinRule) (s : State) : State :=
  { s with rules := s.rules.set n.val r n.isLt }

/-- The count of one bin; no bin stands past position 1023. -/
def State.bin (s : State) (b : Nat) : Word32 := s.bins[b]?.getD 0

/-- The state with one bin replaced. -/
def State.setBin (b : Nat) (w : Word32) (s : State) : State :=
  { s with bins := s.bins.setIfInBounds b w }

/-- One link port. -/
def State.port (p : Side) (s : State) : Port :=
  match p with
  | .head => s.headPort
  | .tail => s.tailPort

/-- The state with one link port replaced. -/
def State.setPort (p : Side) (x : Port) (s : State) : State :=
  match p with
  | .head => { s with headPort := x }
  | .tail => { s with tailPort := x }

/-! ### Occurrences (R137) -/

/-- Whether the report unit accepts a kind (R137, R206). -/
def State.accepts (k : ReportKind) (s : State) : Bool :=
  s.settings.reportEnable.getLsbD (k.code - 1)

/-- The records of the report queue, WAITING and SENT (R136). -/
def State.reportCount (s : State) : Nat := s.waiting.length + s.sent.length

/-- A WAITING record of this kind and subject. -/
def WaitingReport.isFor (k : ReportKind) (n : Nat) (w : WaitingReport) : Bool :=
  w.kind == k && w.subject == n

/-- An occurrence of kind `k` and subject `n` reaches the report unit (R137): ignored, merged, made a new
record, or lost. Of two at the same moment R145 merges the second into the record of the first; where the event of the
first has sent that record (R120), the second makes a new one (log 29, DESIGN CHOICE). -/
def occur (k : ReportKind) (n : Nat) (s : State) : State :=
  if s.accepts k then
    if s.waiting.any (WaitingReport.isFor k n) then
      { s with waiting := s.waiting.map fun w =>
          if w.isFor k n then { w with occurrences := min (w.occurrences + 1) 255 } else w }
    else if s.reportCount < Config.reportRecords then
      { s with waiting := s.waiting ++ [⟨k, n, 1, s.lineTime⟩] }
    else
      { s.count .reportsLost with lostSinceSent := min (s.lostSinceSent + 1) 255 }
  else s

/-! ### References and the held entry -/

/-- A record takes one more reference (R8, R33). -/
def addRef (a : Fin 32) (s : State) : State :=
  s.setRecord a { s.actions[a] with refs := s.actions[a].refs + 1 }

/-- A record drops one reference (R8, R33). -/
def dropRef (a : Fin 32) (s : State) : State :=
  s.setRecord a { s.actions[a] with refs := s.actions[a].refs - 1 }

/-- An entry enters EMPTY: its fields become 0 and its reference is dropped (R8, R9); an EMPTY entry stays. -/
def emptyEntry (i : Fin 64) (s : State) : State :=
  match s.entries[i].state with
  | .empty => s
  | .pending => dropRef s.entries[i].action (s.setEntry i Entry.cleared)
  | .live => dropRef s.entries[i].action (s.setEntry i Entry.cleared)
  | .retiring => dropRef s.entries[i].action (s.setEntry i Entry.cleared)

/-- The held entry: the one the verdict of the cell in reception names (R12). -/
def State.held (s : State) : Option (Fin 64) :=
  match s.tailRx with
  | .receiving r => (r.hdr.bind fun l => l.verdict).bind fun v => v.entry
  | .idle => none
  | .discarding => none

/-- The reception ends: a held entry that is RETIRING becomes EMPTY (R12). -/
def releaseHeld (s : State) : State :=
  match s.held with
  | some i => if s.entries[i].state = .retiring then emptyEntry i s else s
  | none => s

/-! ### Commands and RESETN (R210) -/

/-- While RESETN is held low no event is acted on (R210). -/
def unlessHeld (f : State → State) (s : State) : State := if s.resetHeld then s else f s

/-! ### Replies -/

/-- What an owning rule gives for a request: the state it leaves, the status and the results (R155, R156). -/
structure Answer where
  st : State
  status : Status
  results : List Byte

/-- A request refused without results; the state is as it was (R162). -/
def refusal (st : Status) (s : State) : Answer := ⟨s, st, []⟩

end Sys2Proof.Machine
end

