-- ==== Sys2Proof/Machine/Reports.lean ====
section
/-! DEFINITION. The report unit (08): naming, sending, timing and acknowledging records. -/

namespace Sys2Proof.Machine

/-- The record the report unit names (R139): one whose resend is due, or the oldest WAITING one. -/
inductive Named where
  | resend (r : SentReport)
  | first (w : WaitingReport)
  deriving DecidableEq, Repr

/-- The record named at a grant decision (R139). The due records stand in `sent` in the order they became due,
so the first of them became due earliest. -/
def namedReport (s : State) : Option Named :=
  match s.sent.find? fun r => r.cond == .due with
  | some r => some (.resend r)
  | none =>
    if s.nodeAddress.isSome && decide (s.sent.length < Config.sentWindow) then
      s.waiting.head?.map .first
    else none

/-- The sequence of a first send: the next report sequence, raised while a SENT record holds it (R140). The
fuel is the number of SENT records, which is as many values as can be passed over. -/
def freeSequence (used : List Byte) : Nat → Byte → Byte
  | 0, q => q
  | fuel + 1, q => if used.contains q then freeSequence used fuel (q + 1) else q

/-- The payload of a report cell (R141, R217). -/
def reportPayload (r : SentReport) (lost : Nat) : List Byte :=
  [byteOf r.kind.code] ++ bytes16 r.subject ++ [r.seq, byteOf r.sends, byteOf r.occurrences] ++
    bytes32 r.firstTime ++ [byteOf lost]

/-- The report cell: kind REPORT, channel 0, dest 0x00, src the node address, seq the report sequence
(R141, R212, R217). -/
def reportCell (addr : Byte) (r : SentReport) (lost : Nat) : Cell :=
  buildCell ⟨kindReport, 0, 11, 0, addr, r.seq⟩ (reportPayload r lost)

/-- The SENT record that a first send makes of a WAITING one (R140). -/
def firstSend (w : WaitingReport) (seq : Byte) : SentReport :=
  ⟨w.kind, w.subject, w.occurrences, w.firstTime, seq, 1, .inTransmission⟩

/-- The SENT record after a resend's transmit-start (R140). -/
def SentReport.resent (r : SentReport) : SentReport :=
  { r with sends := r.sends + 1, cond := .inTransmission }

/-- The SENT records with the one of sequence `q` changed. -/
def changeSent (q : Byte) (f : SentReport → SentReport) (l : List SentReport) : List SentReport :=
  l.map fun r => if r.seq = q then f r else r

/-- The report unit's part of a report's transmit-start (R140), with the transmitter's (R123): the record's
send, the cell, and lost_since_sent carried and returned to 0. -/
def sendReport (addr : Byte) (s : State) : State :=
  match namedReport s with
  | some (.resend r) =>
    { s with
      sent := changeSent r.seq SentReport.resent s.sent
      lostSinceSent := 0
      headTx := .sending (.report r.seq) (reportCell addr r.resent s.lostSinceSent) }
  | some (.first w) =>
    let q := freeSequence (s.sent.map SentReport.seq) s.sent.length s.nextSequence
    { s with
      waiting := s.waiting.drop 1
      sent := s.sent ++ [firstSend w q]
      nextSequence := q + 1
      lostSinceSent := 0
      headTx := .sending (.report q) (reportCell addr (firstSend w q) s.lostSinceSent) }
  | none => s

/-- The end of a report cell's transmission: the timer of the record with that sequence starts (R142). -/
def startReportTimer (q : Byte) (s : State) : State :=
  let deadline := s.lineTime + BitVec.ofNat 32 (s.settings.reportTimeout * 1000)
  { s with sent := changeSent q (fun r => { r with cond := .timing deadline }) s.sent }

/-- Whether a record's timer expires at this line time (R143, R209). -/
def SentReport.expires (now : Word32) (r : SentReport) : Bool := r.cond == .timing now

/-- The expiry of one record's timer (R143): resend due, at the end of the due order, or abandoned after the
fourth send. -/
def expireRecord (r : SentReport) (s : State) : State :=
  if r.sends < 4 then
    { s with sent := s.sent.filter (fun x => x.seq != r.seq) ++ [{ r with cond := .due }] }
  else
    { s.count .reportsAbandoned with sent := s.sent.filter fun x => x.seq != r.seq }

/-- The expiry of the timer of the record with sequence `q`, if the line time has reached its deadline
(R143, R209; log 5, log 6). -/
def expireSequence (q : Byte) (s : State) : State :=
  match s.sent.find? fun r => r.seq == q && r.expires s.lineTime with
  | some r => expireRecord r s
  | none => s

/-- REPORT_ACK (R144): the SENT record that holds the sequence now, whichever record held it before (logs 26, 28). -/
def answerReportAck (args : List Byte) (s : State) : Answer :=
  match s.sent.find? fun r => r.seq == argByte args 0 with
  | some r =>
    ⟨{ s with sent := s.sent.filter fun x => x.seq != r.seq }, .ok,
      [byteOf r.kind.code] ++ bytes16 r.subject ++ [byteOf r.sends]⟩
  | none => ⟨s, .notFound, [byteOf s.sent.length]⟩

end Sys2Proof.Machine
end

