-- ==== Sys2Proof/Machine/Resets.lean ====
section
/-! DEFINITION. The device reset (table after R177), the power-on reset and the held reset (R210). -/

namespace Sys2Proof.Machine

/-- The Tail receive side after a device reset: a cell in reception passes in DISCARDING (R114). -/
def discardReception : TailRx → TailRx
  | .idle => .idle
  | .receiving _ => .discarding
  | .discarding => .discarding

/-- The Head transmitter after a device reset: a cell in transmission finishes DETACHED (R131). -/
def detachTransmission : HeadTx → HeadTx
  | .idle => .idle
  | .sending _ cell => .sending .detached cell

/-- Every block at its device reset values, before the report unit raises RESET_DONE (table after R177). -/
def deviceResetValues (s : State) : State :=
  { s with
    entries := State.reset.entries
    actions := State.reset.actions
    meters := State.reset.meters
    refillLeft := State.reset.refillLeft
    bins := State.reset.bins
    rules := State.reset.rules
    captures := []
    nextCapture := 0
    freeBuffers := Config.poolBuffers
    tailRx := discardReception s.tailRx
    urgent := []
    normal := []
    headTx := detachTransmission s.headTx
    starvation := 0
    waiting := []
    sent := []
    lostSinceSent := 0
    replies := []
    memory := []
    resetPending := false
    stats := Stats.zero
    settings := Settings.defaults }

/-- The device reset: the blocks' values, then RESET_DONE with subject 1 (R150, R175). -/
def deviceReset (s : State) : State := occur .resetDone 1 (deviceResetValues s)

/-- POWER_ON_RESET: RESETN goes high, and every block takes its power-on reset values (R210). The commands that
wait and the index of the free value are the model's own. -/
def execPowerOnReset (s : State) : Result :=
  .next { State.reset with pending := s.pending, freeIndex := s.freeIndex }

/-- The port's pins while RESETN is low: the UP pin is released and no symbol is sent (R210). -/
def Port.silenced (x : Port) : Port := { x with upPin := false, txDriven := false }

/-- The part held in power-on reset: its pins silent and the line time at 0 (R210). -/
def holdReset (s : State) : State :=
  { s with
    resetHeld := true
    lineTime := 0
    headPort := s.headPort.silenced
    tailPort := s.tailPort.silenced }

/-- RESETN_HELD_LOW for `ns` nanoseconds (R210): filtered below 100 ns, a reset from 1 µs on, and between the
two as the free value says (log 11). -/
def execResetnHeldLow (ns : Nat) (s : State) : Result :=
  if ns < 100 then .next s
  else if 1000 ≤ ns then .next (holdReset s)
  else if Config.shortPulseResets s.freeIndex ns then
    .next (holdReset { s with freeIndex := s.freeIndex + 1 })
  else .next { s with freeIndex := s.freeIndex + 1 }

end Sys2Proof.Machine
end

