-- ==== Sys2Proof/Machine/Arbiter.lean ====
section
/-! DEFINITION. The Head transmit arbiter (07), the Tail transmitter (R196), and the decisions that fall at the
close of every event (log 3). -/

namespace Sys2Proof.Machine

/-! ### Offers and the grant -/

/-- The four sources of the arbiter (R119). -/
inductive GrantSource where
  | reply
  | urgent
  | report
  | normal
  deriving DecidableEq, Repr

/-- Whether a source offers a cell (R119). No reply or report begins transmission while the node address is
UNASSIGNED (R123). -/
def offers (g : GrantSource) (s : State) : Bool :=
  match g with
  | .reply => s.nodeAddress.isSome && !s.replies.isEmpty
  | .urgent => !s.urgent.isEmpty
  | .report => s.nodeAddress.isSome && (namedReport s).isSome
  | .normal => !s.normal.isEmpty

/-- The source a grant decision selects (R121). -/
def selectSource (s : State) : Option GrantSource :=
  if offers .normal s && decide (s.settings.starvationLimit ≤ s.starvation) then some .normal
  else if offers .reply s then some .reply
  else if offers .urgent s then some .urgent
  else if offers .report s then some .report
  else if offers .normal s then some .normal
  else none

/-- The starvation count at a grant to the reply, urgent or report source (R122). -/
def yieldNormal (s : State) : State :=
  if s.normal.isEmpty then s else { s with starvation := s.starvation + 1 }

/-- The payload of a reply (R215). -/
def replyPayload (r : Reply) : List Byte := [r.kind, r.tag, r.status.code] ++ r.results

/-- The reply cell: kind MGMT_RSP, channel 0, dest 0x00, src the node address, seq the tag (R123, R212). -/
def replyCell (addr : Byte) (r : Reply) : Cell :=
  buildCell ⟨kindMgmtRsp, 0, (replyPayload r).length, 0, addr, r.tag⟩ (replyPayload r)

/-- The transmit-start of the oldest reply (R123, R160). -/
def sendReply (addr : Byte) (s : State) : State :=
  match s.replies with
  | r :: rest =>
    { s with
      replies := { r with inTransmission := true } :: rest
      headTx := .sending .reply (replyCell addr r) }
  | [] => s

/-- The transmit-start of the urgent queue's head (R123). -/
def sendUrgent (s : State) : State :=
  match s.urgent with
  | c :: _ => { s with headTx := .sending .urgent c }
  | [] => s

/-- The transmit-start of the normal queue's head; the starvation count becomes 0 (R122, R123). -/
def sendNormal (s : State) : State :=
  match s.normal with
  | c :: _ => { s with headTx := .sending .normal c, starvation := 0 }
  | [] => s

/-- The grant of a source, which is the transmit-start of its cell (R122, R123). The src of a reply is the address at the
grant (R123, R168). R130 has the reply to an ADDRESS_ASSIGN carry the address it set. Where another ADDRESS_ASSIGN is
taken before that grant the two differ, and the later address is sent (log 25, DESIGN CHOICE). -/
def grantTo (g : GrantSource) (s : State) : State :=
  match g with
  | .reply => sendReply (addressCode s.nodeAddress) (yieldNormal s)
  | .urgent => sendUrgent (yieldNormal s)
  | .report => sendReport (addressCode s.nodeAddress) (yieldNormal s)
  | .normal => sendNormal s

/-- The grant decision (R120): made when the transmitter is IDLE, the Head port is UP and a source offers. -/
def headGrant (s : State) : State :=
  match s.headTx with
  | .idle =>
    if s.headPort.link = .up then
      match selectSource s with
      | some g => grantTo g s
      | none => s
    else s
  | .sending _ _ => s

/-- The start of the Tail transmitter (R196). -/
def tailStart (s : State) : State :=
  if s.tailTx = .idle ∧ s.tailPort.link = .up ∧ s.downQueue ≠ [] then { s with tailTx := .sending } else s

/-- The close of an event: the grant decision and the Tail start it has brought about (R120, R196; log 3). A loss of
signal or a completion that R187 places at the same moment as this event is a later command: what has started here is
then cut short, though R187 says that nothing is sent in between (log 24, DESIGN CHOICE). -/
def settle (s : State) : State := tailStart (headGrant s)

/-! ### What the transmit sides send (R183) -/

/-- How a transmission ends (07, 7.6). -/
inductive TxEnd where
  | complete
  | abort
  deriving DecidableEq, Repr

/-- A cell on the line: a start delimiter, its bytes with the payload check, and an end delimiter (R183). -/
def cellSymbols (c : Cell) : List Symbol := .startDelimiter :: c.map .data ++ [.endDelimiter]

/-- What the transmit side of a port sends (R183, R210). -/
inductive LineOutput where
  | silent
  | alignmentWords
  | cell (symbols : List Symbol)
  deriving DecidableEq, Repr

/-- The cell in transmission on a port: on Tail the oldest of the downstream queue (R118, R196). -/
def State.inTransmission (p : Side) (s : State) : Option Cell :=
  match p with
  | .head =>
    match s.headTx with
    | .sending _ cell => some cell
    | .idle => none
  | .tail =>
    match s.tailTx with
    | .sending => s.downQueue.head?
    | .idle => none

/-- What a port sends: the symbols of the cell in transmission, or alignment words, in every link state; nothing
while RESETN is low (R183, R210). -/
def State.sends (p : Side) (s : State) : LineOutput :=
  if (s.port p).txDriven then
    match s.inTransmission p with
    | some cell => .cell (cellSymbols cell)
    | none => .alignmentWords
  else .silent

/-- The symbols that had left of a cell whose transmission is cut short: fewer than all of them, as many as the free
value says (R183; log 19). -/
def cutSymbols (n : Nat) (cell : Cell) : List Symbol :=
  (cellSymbols cell).take (Config.symbolsReached n % (cellSymbols cell).length)

/-- What the end of a transmission leaves on the line: a transmit-abort leaves the symbols that had left (R183). -/
def recordCut (p : Side) (e : TxEnd) (cell : Cell) (s : State) : State :=
  match e, p with
  | .complete, _ => s
  | .abort, .head => { s with headCut := cutSymbols s.freeIndex cell, freeIndex := s.freeIndex + 1 }
  | .abort, .tail => { s with tailCut := cutSymbols s.freeIndex cell, freeIndex := s.freeIndex + 1 }

/-! ### The end of a transmission -/

/-- The end of an urgent cell's transmission (R110). -/
def endUrgent (e : TxEnd) (s : State) : State :=
  match s.urgent with
  | _ :: rest =>
    ({ s with urgent := rest, freeBuffers := s.freeBuffers + 1 } : State).count
      (if e = .complete then .forwarded else .txAborted)
  | [] => s

/-- The end of a normal cell's transmission (R110); the starvation count returns to 0 when the queue becomes
empty (R122). -/
def endNormal (e : TxEnd) (s : State) : State :=
  match s.normal with
  | _ :: rest =>
    ({ s with
        normal := rest
        freeBuffers := s.freeBuffers + 1
        starvation := if rest.isEmpty then 0 else s.starvation } : State).count
      (if e = .complete then .forwarded else .txAborted)
  | [] => s

/-- The end of a reply's transmission (R126, R160): it leaves the queue, and with the reset mark the device
reset takes effect (R175). -/
def endReply (s : State) : State :=
  match s.replies.find? fun r => r.inTransmission with
  | some r =>
    let s' := { s with replies := s.replies.filter fun r => !r.inTransmission }
    if r.resetMark then deviceReset s' else s'
  | none => s

/-- The end of the Head transmission, handed to the cell's source (R124, R125); nothing ends while the
transmitter is IDLE (log 5). -/
def headTxEnd (e : TxEnd) (s : State) : State :=
  match s.headTx with
  | .idle => s
  | .sending src cell =>
    let s' := { recordCut .head e cell s with headTx := .idle }
    match src with
    | .urgent => endUrgent e s'
    | .normal => endNormal e s'
    | .reply => endReply s'
    | .report q => startReportTimer q s'
    | .detached => s'

/-- The end of the Tail transmission (R196); nothing ends while the transmitter is IDLE (log 5). -/
def tailTxEnd (e : TxEnd) (s : State) : State :=
  match s.tailTx with
  | .idle => s
  | .sending =>
    ({ recordCut .tail e (s.downQueue.headD []) s with
        tailTx := .idle
        downQueue := s.downQueue.drop 1 } : State).count
      (if e = .complete then .forwardedDown else .txAbortedDown)

/-! ### The commands -/

/-- TRANSMIT_START: the grant decision of R120 to R123 (log 4). -/
def execTransmitStart (s : State) : Result := .next (unlessHeld headGrant s)

/-- TRANSMIT_COMPLETE (R124), with the grant decision that follows it. After a device reset that the end of its own reply
brings about, that decision sends the RESET_DONE report (R131, R150), so that a REPORT_ACK after it can find it SENT and
remove it (R144), though R151 answers such an ack NOT_FOUND (log 26, DESIGN CHOICE). -/
def execTransmitComplete (s : State) : Result :=
  .next (unlessHeld (fun s => settle (headTxEnd .complete s)) s)

/-- TAIL_TRANSMIT_START (R196; log 4). -/
def execTailTransmitStart (s : State) : Result := .next (unlessHeld tailStart s)

/-- TAIL_TRANSMIT_COMPLETE (R196), with the next start that follows it. -/
def execTailTransmitComplete (s : State) : Result :=
  .next (unlessHeld (fun s => settle (tailTxEnd .complete s)) s)

end Sys2Proof.Machine
end

