-- ==== Sys2Proof/Machine/Statistics.lean ====
section
/-! DEFINITION. Statistics and settings requests (11, and 09 for the settings' checks). -/

namespace Sys2Proof.Machine

/-! ### STATS_READ and STATS_CLEAR (R200 to R203) -/

/-- The value carried is set to (R201). -/
def carriedNow (s : State) : Word32 :=
  BitVec.ofNat 32 ((match s.tailRx with
    | .receiving _ => 1
    | .idle => 0
    | .discarding => 0) + s.urgent.length + s.normal.length)

/-- The values of a statistics group, in the order of R216; none for a group above 3. -/
def groupBytes (g : Nat) (s : State) : Option (List Byte) :=
  let t := s.stats
  match g with
  | 0 => some ([t.started, t.headerBad, t.payloadBad, t.rxAborted, t.poolDropped, t.actionDiscarded,
      t.meterDropped, t.queueDropped, t.forwarded, t.txAborted, t.carried].flatMap bytes32)
  | 1 => some ([t.received, t.taken, t.forwardedDown, t.droppedDown, t.badDown,
      t.txAbortedDown].flatMap bytes32)
  | 2 => some ([t.requestsTaken, t.replays, t.mgmtDropped, t.broadcastFailed, t.broadcastRefused,
      t.reportsLost, t.reportsAbandoned, t.capturesLost].flatMap bytes32)
  | 3 => some ([byteOf s.freeBuffers, byteOf s.urgent.length, byteOf s.normal.length, byteOf s.reportCount,
      byteOf s.sent.length, byteOf s.captures.length] ++ bytes32 s.lineTime)
  | _ => none

/-- STATS_READ (R202). -/
def answerStatsRead (args : List Byte) (s : State) : Answer :=
  match groupBytes (argNat args 0) s with
  | none => refusal .badIndex s
  | some bs => ⟨s, .ok, argByte args 0 :: bs⟩

/-- STATS_CLEAR (R203). -/
def answerStatsClear (_args : List Byte) (s : State) : Answer :=
  ⟨{ s with stats := { Stats.zero with carried := carriedNow s } }, .ok, bytes32 (carriedNow s)⟩

/-! ### SETTING_WRITE and SETTING_READ (R170 to R172, R206) -/

/-- The eight settings by item code (R206). -/
inductive SettingItem where
  | missAction
  | probe0Offset
  | probe1Offset
  | normalLimit
  | refillInterval
  | reportTimeout
  | reportEnable
  | starvationLimit
  deriving DecidableEq, Repr

/-- The setting an item code names (R206). -/
def settingItemOf (n : Nat) : Option SettingItem :=
  match n with
  | 0 => some .missAction
  | 1 => some .probe0Offset
  | 2 => some .probe1Offset
  | 3 => some .normalLimit
  | 4 => some .refillInterval
  | 5 => some .reportTimeout
  | 6 => some .reportEnable
  | 7 => some .starvationLimit
  | _ => none

/-- The two value bytes of miss_action: NONE is 0x00FF (R216). -/
def missActionCode : Option (Fin 32) → Nat
  | some a => a.val
  | none => 0x00FF

/-- The value of one setting as its two bytes carry it (R172, R216). -/
def settingCode (i : SettingItem) (t : Settings) : Nat :=
  match i with
  | .missAction => missActionCode t.missAction
  | .probe0Offset => t.probe0Offset
  | .probe1Offset => t.probe1Offset
  | .normalLimit => t.normalLimit
  | .refillInterval => t.refillInterval
  | .reportTimeout => t.reportTimeout
  | .reportEnable => t.reportEnable.toNat
  | .starvationLimit => t.starvationLimit

/-- Whether a value lies in the range of its item (R170, R216). -/
def settingInRange (i : SettingItem) (v : Nat) : Bool :=
  match i with
  | .missAction => v == 0x00FF || decide (v ≤ 31)
  | .probe0Offset => v ≤ 47
  | .probe1Offset => v ≤ 47
  | .normalLimit => decide (1 ≤ v) && decide (v ≤ 23)
  | .refillInterval => v == 50 || v == 100 || v == 200 || v == 500
  | .reportTimeout => decide (1 ≤ v) && decide (v ≤ 255)
  | .reportEnable => v ≤ 255
  | .starvationLimit => decide (1 ≤ v) && decide (v ≤ 255)

/-- A reference that miss_action takes or drops (R34). -/
def moveRef (f : Fin 32 → State → State) (a : Option (Fin 32)) (s : State) : State :=
  match a with
  | some a => f a s
  | none => s

/-- miss_action takes a new value, and the references move (R34); the value it already holds moves none. -/
def setMissAction (m : Option (Fin 32)) (s : State) : State :=
  if m = s.settings.missAction then s
  else
    let s' := moveRef addRef m (moveRef dropRef s.settings.missAction s)
    { s' with settings := { s.settings with missAction := m } }

/-- One setting takes a value in its range (R171); refill_interval restarts the refill timer (R45). -/
def setSetting (i : SettingItem) (v : Nat) (s : State) : State :=
  match i with
  | .missAction => setMissAction (position 32 v) s
  | .probe0Offset => { s with settings := { s.settings with probe0Offset := v } }
  | .probe1Offset => { s with settings := { s.settings with probe1Offset := v } }
  | .normalLimit => { s with settings := { s.settings with normalLimit := v } }
  | .refillInterval => { s with settings := { s.settings with refillInterval := v }, refillLeft := v }
  | .reportTimeout => { s with settings := { s.settings with reportTimeout := v } }
  | .reportEnable => { s with settings := { s.settings with reportEnable := byteOf v } }
  | .starvationLimit => { s with settings := { s.settings with starvationLimit := v } }

/-- Whether a SETTING_WRITE names an action record that is not defined (R170, order 3). -/
def namesUndefined (i : SettingItem) (v : Nat) (s : State) : Bool :=
  match i, position 32 v with
  | .missAction, some a => !s.actions[a].defined
  | _, _ => false

/-- SETTING_WRITE (R170, R171). -/
def answerSettingWrite (args : List Byte) (s : State) : Answer :=
  match settingItemOf (argNat args 0) with
  | none => refusal .badIndex s
  | some i =>
    let v := argWord args 1
    if settingInRange i v = false then refusal .badValue s
    else if namesUndefined i v s then refusal .undefinedAction s
    else ⟨setSetting i v s, .ok, bytes16 (settingCode i s.settings)⟩

/-- SETTING_READ (R172). -/
def answerSettingRead (args : List Byte) (s : State) : Answer :=
  match settingItemOf (argNat args 0) with
  | none => refusal .badIndex s
  | some i => ⟨s, .ok, argByte args 0 :: bytes16 (settingCode i s.settings)⟩

end Sys2Proof.Machine
end

