-- ==== Sys2Proof/Machine/Actions.lean ====
section
/-! DEFINITION. The action table (02): its requests. The verdict's copies are formed in Upstream.lean. -/

namespace Sys2Proof.Machine

/-- The presence flags of an action: bit 0 rewrite, bit 1 meter, bit 2 bin rule (R216). -/
def Action.presenceFlags (a : Action) : Byte :=
  BitVec.ofBool a.rule.isSome ++ BitVec.ofBool a.meter.isSome ++ BitVec.ofBool a.rewrite.isSome |>.setWidth 8

/-- The value byte of an item that may be absent, 0 when it is (R211). -/
def optByte {n : Nat} : Option (Fin n) → Byte
  | some i => byteOf i.val
  | none => 0

/-- ACTION_WRITE (R35, R36). The flag bits above bit 2 are ignored (R211). -/
def answerActionWrite (args : List Byte) (s : State) : Answer :=
  let flags := argByte args 3
  match position 32 (argNat args 0), optPosition (flags.getLsbD 1) 16 (argNat args 5),
      optPosition (flags.getLsbD 2) 8 (argNat args 6) with
  | some a, some m, some r =>
    match dispositionOf (argByte args 1), classOf (argByte args 2),
        optPosition (flags.getLsbD 0) 64 (argNat args 4) with
    | some d, some c, some ch =>
      ⟨s.setRecord a { s.actions[a] with
          defined := true
          act := ⟨d, c, ch.map BitVec.ofFin, m, r⟩ },
        .ok, [flagByte s.actions[a].defined, byteOf s.actions[a].refs]⟩
    | _, _, _ => refusal .badValue s
  | _, _, _ => refusal .badIndex s

/-- ACTION_READ (R37). -/
def answerActionRead (args : List Byte) (s : State) : Answer :=
  match position 32 (argNat args 0) with
  | none => refusal .badIndex s
  | some a =>
    let r := s.actions[a]
    ⟨s, .ok, [byteOf a.val, flagByte r.defined, r.act.disposition.code, r.act.cls.code, r.act.presenceFlags,
      optByte (r.act.rewrite.map BitVec.toFin), optByte r.act.meter, optByte r.act.rule, byteOf r.refs]⟩

/-- ACTION_CLEAR (R38). -/
def answerActionClear (args : List Byte) (s : State) : Answer :=
  match position 32 (argNat args 0) with
  | none => refusal .badIndex s
  | some a =>
    let r := s.actions[a]
    if 0 < r.refs then ⟨s, .inUse, [byteOf r.refs]⟩
    else ⟨s.setRecord a ActionRecord.undefined, .ok, [flagByte r.defined]⟩

end Sys2Proof.Machine
end

