-- ==== Sys2Proof/Machine/Bins.lean ====
section
/-! DEFINITION. The bin unit (04): counting at end-of-cell, and its requests. -/

namespace Sys2Proof.Machine

/-! ### Counting (R63 to R68) -/

/-- The payload byte at an offset of a cell of this length, when it is present (R64, R65). -/
def payloadByteAt (offset length : Nat) (buf : List Byte) : Option Byte :=
  if offset < length then some (argByte buf (6 + offset)) else none

/-- The gate test (R64). -/
def gatePasses (c : BinConfig) (length : Nat) (buf : List Byte) : Bool :=
  match c.gate, payloadByteAt c.gateOffset length buf with
  | .none, _ => true
  | .bitSet, some b => b.getLsbD c.gateBit
  | .bitClear, some b => !b.getLsbD c.gateBit
  | .bitSet, none => false
  | .bitClear, none => false

/-- The source value, when it is present (R65). -/
def sourceValue (c : BinConfig) (h : Header) (buf : List Byte) : Option Nat :=
  match c.source with
  | .payloadByte => (payloadByteAt c.sourceOffset h.length buf).map BitVec.toNat
  | .payloadWord =>
    if c.sourceOffset + 1 < h.length then some (argWord buf (6 + c.sourceOffset)) else none
  | .channel => some h.channel.toNat
  | .src => some h.src.toNat
  | .length => some h.length

/-- The shift and the range fit (R66). -/
def fitValue (c : BinConfig) (v : Nat) : Nat :=
  match c.mode with
  | .wrap => v / 2 ^ c.shift % 2 ^ c.width
  | .clamp => min (v / 2 ^ c.shift) (2 ^ c.width - 1)

/-- The index of the bin (R67). -/
def binIndex (c : BinConfig) (v : Nat) : Nat := c.base - c.base % 2 ^ c.width + fitValue c v

/-- The amount added (R68). -/
def binAmount (c : BinConfig) (length : Nat) : Nat :=
  match c.increment with
  | .one => 1
  | .cellSize => cellSize length

/-- The addition to a bin, with its BIN_SATURATED occurrence (R68). -/
def addToBin (b amount : Nat) (s : State) : State :=
  let s' := s.setBin b (satAdd (s.bin b) amount)
  if s.bin b ≠ countMax ∧ s'.bin b = countMax then occur .binSaturated b s' else s'

/-- Bin counting by a verdict's rule copy (R63): a disabled copy counts nothing (R62). -/
def countCell (n : Fin 8) (c : BinConfig) (h : Header) (buf : List Byte) (s : State) : State :=
  let r := s.rules[n]
  if c.enabled = false then s
  else if gatePasses c h.length buf = false then s.setRule n { r with gatedOut := satAdd r.gatedOut 1 }
  else
    match sourceValue c h buf with
    | none => s.setRule n { r with sourceAbsent := satAdd r.sourceAbsent 1 }
    | some v =>
      addToBin (binIndex c v) (binAmount c h.length)
        (s.setRule n { r with counted := satAdd r.counted 1 })

/-! ### BINRULE_WRITE and BINRULE_READ (R69 to R71) -/

/-- The configuration a BINRULE_WRITE carries (R216); none when a field lies outside its values. -/
def binConfigOfArgs (args : List Byte) : Option BinConfig :=
  match yesNo (argByte args 1), sourceOf (argByte args 5), rangeModeOf (argByte args 8),
      gateOf (argByte args 9), incrementOf (argByte args 12) with
  | some en, some from_, some mode, some gate, some inc =>
    if 1023 < argWord args 2 ∨ 8 < argNat args 4 ∨ 47 < argNat args 6 ∨ 15 < argNat args 7 ∨
        47 < argNat args 10 ∨ 7 < argNat args 11 then none
    else
      some
        { enabled := en
          base := argWord args 2
          width := argNat args 4
          source := from_
          sourceOffset := argNat args 6
          shift := argNat args 7
          mode := mode
          gate := gate
          gateOffset := argNat args 10
          gateBit := argNat args 11
          increment := inc }
  | _, _, _, _, _ => none

/-- BINRULE_WRITE (R69, R70): both checks after the position give BAD_VALUE. -/
def answerBinruleWrite (args : List Byte) (s : State) : Answer :=
  match position 8 (argNat args 0) with
  | none => refusal .badIndex s
  | some n =>
    match binConfigOfArgs args, yesNo (argByte args 13) with
    | some c, some clear =>
      let r := s.rules[n]
      ⟨s.setRule n (if clear then ⟨c, 0, 0, 0⟩ else { r with cfg := c }), .ok,
        [flagByte r.cfg.enabled] ++ bytes32 r.counted ++ bytes32 r.gatedOut ++ bytes32 r.sourceAbsent⟩
    | _, _ => refusal .badValue s

/-- The 12 configuration bytes in BINRULE_WRITE order (R216). -/
def binConfigBytes (c : BinConfig) : List Byte :=
  [flagByte c.enabled] ++ bytes16 c.base ++ [byteOf c.width, c.source.code, byteOf c.sourceOffset,
    byteOf c.shift, c.mode.code, c.gate.code, byteOf c.gateOffset, byteOf c.gateBit, c.increment.code]

/-- BINRULE_READ (R71). -/
def answerBinruleRead (args : List Byte) (s : State) : Answer :=
  match position 8 (argNat args 0) with
  | none => refusal .badIndex s
  | some n =>
    let r := s.rules[n]
    ⟨s, .ok, [byteOf n.val] ++ binConfigBytes r.cfg ++ bytes32 r.counted ++ bytes32 r.gatedOut ++
      bytes32 r.sourceAbsent⟩

/-! ### The bins (R72 to R75) -/

/-- The checks of the three bin requests, in order (R72): the status of the first that applies. -/
def binRangeCheck (most first count : Nat) : Option Status :=
  if count = 0 ∨ most < count then some .badValue
  else if 1023 < first then some .badIndex
  else if 1024 < first + count then some .badIndex
  else none

/-- The values of a range of bins, in order of position (R73). -/
def binValues (first count : Nat) (s : State) : List Word32 :=
  (List.range' first count).map s.bin

/-- A range of bins set to 0 (R74, R75). -/
def clearBins (first count : Nat) (s : State) : State :=
  { s with bins := s.bins.mapIdx fun b w => if first ≤ b ∧ b < first + count then 0 else w }

/-- The first bin and the count as a reply carries them (R216). -/
def binRangeBytes (args : List Byte) : List Byte := bytes16 (argWord args 0) ++ bytes16 (argWord args 2)

/-- BINS_READ (R72, R73). -/
def answerBinsRead (args : List Byte) (s : State) : Answer :=
  match binRangeCheck 10 (argWord args 0) (argWord args 2) with
  | some st => refusal st s
  | none =>
    ⟨s, .ok, binRangeBytes args ++ (binValues (argWord args 0) (argWord args 2) s).flatMap bytes32⟩

/-- BINS_READ_CLEAR (R72, R74). -/
def answerBinsReadClear (args : List Byte) (s : State) : Answer :=
  match binRangeCheck 10 (argWord args 0) (argWord args 2) with
  | some st => refusal st s
  | none =>
    ⟨clearBins (argWord args 0) (argWord args 2) s, .ok,
      binRangeBytes args ++ (binValues (argWord args 0) (argWord args 2) s).flatMap bytes32⟩

/-- BINS_CLEAR (R72, R75). -/
def answerBinsClear (args : List Byte) (s : State) : Answer :=
  match binRangeCheck 1024 (argWord args 0) (argWord args 2) with
  | some st => refusal st s
  | none =>
    let values := binValues (argWord args 0) (argWord args 2) s
    ⟨clearBins (argWord args 0) (argWord args 2) s, .ok,
      binRangeBytes args ++ bytes16 (values.countP (· != 0)) ++ bytes16 (values.countP (· == countMax))⟩

end Sys2Proof.Machine
end

