-- ==== Sys2Proof/Machine/Captures.lean ====
section
/-! DEFINITION. The capture ring (05): the store at end-of-cell, and its requests. -/

namespace Sys2Proof.Machine

/-- Whether a disposition captures (R83). -/
def Disposition.captures : Disposition → Bool
  | .forward => false
  | .discard => false
  | .captureForward => true
  | .captureDiscard => true

/-- The record of a cell at its end-of-cell (R84). -/
def captureRecord (v : Verdict) (o : CellOutcome) (h : Header) (buf : List Byte) (s : State) :
    CaptureRecord where
  number := s.nextCapture
  lineTime := s.lineTime
  entry := v.entry
  action := v.actionPos
  outcome := o
  header := buf.take 6
  payload := payloadOf buf h.length

/-- The capture step (R83 to R85): a store with CAPTURE_READY, or a loss with CAPTURE_LOST. -/
def captureCell (v : Verdict) (o : CellOutcome) (h : Header) (buf : List Byte) (s : State) : State :=
  if v.act.disposition.captures then
    if s.captures.length < Config.captureRecords then
      occur .captureReady 0
        { s with captures := s.captures ++ [captureRecord v o h buf s], nextCapture := s.nextCapture + 1 }
    else occur .captureLost 0 (s.count .capturesLost)
  else s

/-- The 48 payload bytes two fetch replies carry, padded with 0 (R87, R88, R212). -/
def paddedPayload (r : CaptureRecord) : List Byte := (r.payload ++ List.replicate 48 0).take 48

/-- The results of CAPTURE_FETCH part 0 (R87, R216). -/
def capturePart0 (r : CaptureRecord) (held : Nat) : List Byte :=
  bytes16 r.number.toNat ++ [byteOf held] ++ bytes32 r.lineTime ++
    [positionCode r.entry, positionCode r.action, r.outcome.code] ++ r.header ++ (paddedPayload r).take 24

/-- The results of CAPTURE_FETCH part 1 (R88, R216). -/
def capturePart1 (r : CaptureRecord) (held : Nat) : List Byte :=
  bytes16 r.number.toNat ++ [byteOf held, byteOf (headerOf r.header).length] ++ (paddedPayload r).drop 24

/-- CAPTURE_FETCH (R87, R88). -/
def answerCaptureFetch (args : List Byte) (s : State) : Answer :=
  if argByte args 0 ≠ 0 ∧ argByte args 0 ≠ 1 then refusal .badValue s
  else
    match s.captures with
    | [] => ⟨s, .noCapture, bytes16 s.nextCapture.toNat⟩
    | r :: _ =>
      ⟨s, .ok, if argByte args 0 = 0 then capturePart0 r s.captures.length
        else capturePart1 r s.captures.length⟩

/-- CAPTURE_RELEASE (R89). Of a release that names the next capture number of an empty ring, R90's row leaves 0 records
after the store and 1 before it, though its last sentence has the same records in the ring in both orders. The release
follows R89 and the row (log 27, DESIGN CHOICE). -/
def answerCaptureRelease (args : List Byte) (s : State) : Answer :=
  match s.captures with
  | [] => ⟨s, .noCapture, bytes16 s.nextCapture.toNat⟩
  | r :: rest =>
    if r.number.toNat = argWord args 0 then ⟨{ s with captures := rest }, .ok, [byteOf rest.length]⟩
    else ⟨s, .notFound, bytes16 r.number.toNat⟩

end Sys2Proof.Machine
end

