-- ==== Sys2Proof/Machine/MatchTable.lean ====
section
/-! DEFINITION. The match table (01): the key, matching, classification, and the requests that write, read,
activate, retire and discard entries. -/

namespace Sys2Proof.Machine

/-! ### The key (R3 to R5) -/

/-- The classification key of a cell (R3). -/
structure Key where
  kind : BitVec 4
  channel : BitVec 6
  dest : Byte
  src : Byte
  length : Nat
  probe0 : Byte
  probe1 : Byte
  probe0Present : Bool
  probe1Present : Bool
  deriving DecidableEq, Repr

/-- The probe at a latched offset (R3, R4): 0x00 when the offset is not less than the length, when the byte did
not arrive (R101), and, as the buffer holds 0x00 there, when it was a code violation (R190). -/
def probeAt (offset length : Nat) (buf : List Byte) : Byte :=
  if offset < length then argByte buf (6 + offset) else 0

/-- The key of the cell in reception (R3). -/
def keyOf (l : Latched) (buf : List Byte) : Key where
  kind := l.header.kind
  channel := l.header.channel
  dest := l.header.dest
  src := l.header.src
  length := l.header.length
  probe0 := probeAt l.probe0Offset l.header.length buf
  probe1 := probeAt l.probe1Offset l.header.length buf
  probe0Present := l.probe0Offset < l.header.length
  probe1Present := l.probe1Offset < l.header.length

/-- The key-complete point, as the number of payload bytes the key needs (R5). -/
def keyPoint (length probe0 probe1 : Nat) : Nat :=
  if max probe0 probe1 < length then max probe0 probe1 + 1 else length

/-! ### Matching (R6, R7) -/

/-- A masked field matches: equal in every bit whose care is 1 (R6). -/
def maskedMatch {w : Nat} (key value care : BitVec w) : Bool := key &&& care == value &&& care

/-- The presence requirement holds (R7). -/
def presenceHolds (p : Presence) (k : Key) : Bool :=
  match p with
  | .any => true
  | .bothPresent => k.probe0Present && k.probe1Present
  | .anyAbsent => !(k.probe0Present && k.probe1Present)

/-- An entry matches a key (R7); its state plays no part. -/
def entryMatches (e : Entry) (k : Key) : Bool :=
  maskedMatch k.kind e.kindValue e.kindCare && maskedMatch k.channel e.channelValue e.channelCare &&
    maskedMatch k.dest e.destValue e.destCare && maskedMatch k.src e.srcValue e.srcCare &&
    maskedMatch k.probe0 e.probe0Value e.probe0Care && maskedMatch k.probe1 e.probe1Value e.probe1Care &&
    decide (e.lengthMin ≤ k.length) && decide (k.length ≤ e.lengthMax) && presenceHolds e.presence k

/-- The LIVE entry at this position matches (R10). -/
def hitsAt (k : Key) (s : State) (i : Fin 64) : Bool :=
  s.entries[i].state == .live && entryMatches s.entries[i] k

/-- The first LIVE entry that matches, in order of position (R10). -/
def findHit (k : Key) (s : State) : Option (Fin 64) := (List.finRange 64).find? (hitsAt k s)

/-- The hit count rises, and the first hit of an entry that reports it raises ENTRY_FIRST_HIT (R11). -/
def recordHit (i : Fin 64) (s : State) : State :=
  let e := s.entries[i]
  let s' := s.setEntry i { e with hits := satAdd e.hits 1 }
  if e.hits = 0 ∧ e.firstHit = true then occur .entryFirstHit i.val s' else s'

/-! ### ENTRY_WRITE and ENTRY_READ (R15 to R17) -/

/-- The entry an ENTRY_WRITE carries, PENDING with a hit count of 0 (R16, R216); none when a field of the third
check of R15 lies outside its values. -/
def entryOfArgs (args : List Byte) (a : Fin 32) : Option Entry :=
  match position 8 (argNat args 1), position 16 (argNat args 2), position 16 (argNat args 3),
      position 64 (argNat args 4), position 64 (argNat args 5), presenceOf (argByte args 16) with
  | some b, some kv, some kc, some cv, some cc, some pr =>
    some
      { state := .pending
        batch := b
        kindValue := BitVec.ofFin kv
        kindCare := BitVec.ofFin kc
        channelValue := BitVec.ofFin cv
        channelCare := BitVec.ofFin cc
        destValue := argByte args 6
        destCare := argByte args 7
        srcValue := argByte args 8
        srcCare := argByte args 9
        lengthMin := argNat args 10
        lengthMax := argNat args 11
        probe0Value := argByte args 12
        probe0Care := argByte args 13
        probe1Value := argByte args 14
        probe1Care := argByte args 15
        presence := pr
        action := a
        firstHit := argByte args 18 != 0
        hits := 0 }
  | _, _, _, _, _, _ => none

/-- An entry is written and the references move (R16, R33). -/
def writeEntry (i : Fin 64) (e : Entry) (s : State) : State :=
  let old := s.entries[i]
  let s' := s.setEntry i e
  if old.state = .empty then addRef e.action s'
  else if old.action = e.action then s'
  else addRef e.action (dropRef old.action s')

/-- ENTRY_WRITE (R15, R16). -/
def answerEntryWrite (args : List Byte) (s : State) : Answer :=
  match position 64 (argNat args 0) with
  | none => refusal .badIndex s
  | some i =>
    match position 32 (argNat args 17) with
    | none => refusal .badIndex s
    | some a =>
      match entryOfArgs args a with
      | none => refusal .badValue s
      | some e =>
        if e.lengthMax < e.lengthMin ∨ 48 < e.lengthMax then refusal .badValue s
        else if s.entries[i].state = .live ∨ s.entries[i].state = .retiring then refusal .entryBusy s
        else if s.actions[a].defined = false then refusal .undefinedAction s
        else ⟨writeEntry i e s, .ok, [s.entries[i].state.code]⟩

/-- The 18 fields of an entry in ENTRY_WRITE order from the batch (R216). -/
def entryFieldBytes (e : Entry) : List Byte :=
  [byteOf e.batch.val, byteOf e.kindValue.toNat, byteOf e.kindCare.toNat, byteOf e.channelValue.toNat,
    byteOf e.channelCare.toNat, e.destValue, e.destCare, e.srcValue, e.srcCare, byteOf e.lengthMin,
    byteOf e.lengthMax, e.probe0Value, e.probe0Care, e.probe1Value, e.probe1Care, e.presence.code,
    byteOf e.action.val, flagByte e.firstHit]

/-- ENTRY_READ (R17). -/
def answerEntryRead (args : List Byte) (s : State) : Answer :=
  match position 64 (argNat args 0) with
  | none => refusal .badIndex s
  | some i =>
    ⟨s, .ok, [byteOf i.val, s.entries[i].state.code] ++ entryFieldBytes s.entries[i] ++
      bytes32 s.entries[i].hits⟩

/-! ### Retirement, discard and activation (R18 to R24) -/

/-- Retirement of one entry (R18). -/
def retireEntry (i : Fin 64) (s : State) : State :=
  match s.entries[i].state with
  | .live =>
    if s.held = some i then s.setEntry i { s.entries[i] with state := .retiring } else emptyEntry i s
  | .pending => emptyEntry i s
  | .empty => s
  | .retiring => s

/-- A change made at every position, from 0 upward, in one event. -/
def atEveryPosition (f : Fin 64 → State → State) (s : State) : State :=
  (List.finRange 64).foldl (fun t i => f i t) s

/-- The number of entries in this state and batch. -/
def countEntries (st : EntryState) (b : Fin 8) (s : State) : Nat :=
  (List.finRange 64).countP fun i => s.entries[i].state == st && s.entries[i].batch == b

/-- ENTRY_RETIRE (R19). R26 calls the reply for the held LIVE entry the same before and after the release, where R18 and
R19 give the state after as RETIRING before it and EMPTY after it. The reply follows R19 (log 22, DESIGN CHOICE). -/
def answerEntryRetire (args : List Byte) (s : State) : Answer :=
  match position 64 (argNat args 0) with
  | none => refusal .badIndex s
  | some i =>
    let s' := retireEntry i s
    ⟨s', .ok, [s.entries[i].state.code, s'.entries[i].state.code]⟩

/-- BATCH_RETIRE at one position (R20). -/
def retireIfIn (c : Fin 8) (i : Fin 64) (s : State) : State :=
  if s.entries[i].batch = c then retireEntry i s else s

/-- BATCH_RETIRE (R20). -/
def answerBatchRetire (args : List Byte) (s : State) : Answer :=
  match position 8 (argNat args 0) with
  | none => refusal .badIndex s
  | some c =>
    ⟨atEveryPosition (retireIfIn c) s, .ok,
      [byteOf (countEntries .live c s), byteOf (countEntries .pending c s)]⟩

/-- BATCH_DISCARD at one position (R21). -/
def discardIfIn (b : Fin 8) (i : Fin 64) (s : State) : State :=
  if s.entries[i].state = .pending ∧ s.entries[i].batch = b then emptyEntry i s else s

/-- BATCH_DISCARD (R21). -/
def answerBatchDiscard (args : List Byte) (s : State) : Answer :=
  match position 8 (argNat args 0) with
  | none => refusal .badIndex s
  | some b => ⟨atEveryPosition (discardIfIn b) s, .ok, [byteOf (countEntries .pending b s)]⟩

/-- BATCH_ACTIVATE at one position (R22, R23): each position is in at most one of the two sets, which are read
from the table before the request. -/
def activateAt (b : Fin 8) (c : Option (Fin 8)) (i : Fin 64) (s : State) : State :=
  let e := s.entries[i]
  if e.state = .pending ∧ e.batch = b then s.setEntry i { e with state := .live, hits := 0 }
  else if e.state = .live ∧ c = some e.batch then retireEntry i s
  else s

/-- BATCH_ACTIVATE (R22, R23); the code 0xFF is no batch to retire (R211). -/
def answerBatchActivate (args : List Byte) (s : State) : Answer :=
  match position 8 (argNat args 0), optPosition (argByte args 1 != 0xFF) 8 (argNat args 1) with
  | some b, some c =>
    let retired := match c with
      | some c => countEntries .live c s
      | none => 0
    ⟨atEveryPosition (activateAt b c) s, .ok, [byteOf (countEntries .pending b s), byteOf retired]⟩
  | _, _ => refusal .badIndex s

end Sys2Proof.Machine
end

