-- ==== Sys2Proof/Machine/Meters.lean ====
section
/-! DEFINITION. The meters (03): refill, charge and requests. -/

namespace Sys2Proof.Machine

/-- One meter at a refill expiry (R46). -/
def Meter.refilled (m : Meter) : Meter :=
  if 0 < m.rate then { m with credit := min m.burst (m.credit + m.rate) } else m

/-- The refill expiry: every meter, in one event, and the next interval starts at once (R45, R46). -/
def refillAll (s : State) : State :=
  { s with meters := s.meters.map Meter.refilled, refillLeft := s.settings.refillInterval }

/-- The charge of a cell to a meter (R47 to R49), with the meter outcome (R50). -/
def chargeMeter (m : Fin 16) (size : Nat) (s : State) : State × MeterOutcome :=
  let x := s.meters[m]
  if size ≤ x.credit then
    (s.setMeter m { x with credit := x.credit - size, conform := satAdd x.conform 1, inExcess := false },
      .conform)
  else
    let s' := s.setMeter m { x with exceed := satAdd x.exceed 1, inExcess := true }
    (if x.inExcess then s' else occur .meterExceeded m.val s', .exceed x.policy)

/-- METER_WRITE (R54, R55). -/
def answerMeterWrite (args : List Byte) (s : State) : Answer :=
  match position 16 (argNat args 0) with
  | none => refusal .badIndex s
  | some m =>
    if 4095 < argWord args 1 then refusal .badValue s
    else if argWord args 3 < 64 ∨ 16383 < argWord args 3 then refusal .badValue s
    else
      match policyOf (argByte args 5), yesNo (argByte args 6) with
      | some p, some clear =>
        let x := s.meters[m]
        ⟨s.setMeter m
            { rate := argWord args 1
              burst := argWord args 3
              credit := argWord args 3
              policy := p
              inExcess := false
              conform := if clear then 0 else x.conform
              exceed := if clear then 0 else x.exceed },
          .ok, bytes16 x.credit ++ [flagByte x.inExcess] ++ bytes32 x.conform ++ bytes32 x.exceed⟩
      | _, _ => refusal .badValue s

/-- METER_READ (R56). -/
def answerMeterRead (args : List Byte) (s : State) : Answer :=
  match position 16 (argNat args 0) with
  | none => refusal .badIndex s
  | some m =>
    let x := s.meters[m]
    ⟨s, .ok, [byteOf m.val] ++ bytes16 x.rate ++ bytes16 x.burst ++ [x.policy.code] ++ bytes16 x.credit ++
      [flagByte x.inExcess] ++ bytes32 x.conform ++ bytes32 x.exceed⟩

end Sys2Proof.Machine
end

