-- ==== Sys2Proof/Machine/Upstream.lean ====
section
/-! DEFINITION. The upstream path (06): the Tail receive side, from start-of-cell to the disposition of the
cell. -/

namespace Sys2Proof.Machine

/-! ### Key-complete (R14, R101) -/

/-- The action of a verdict: the record an entry or miss_action names, or the default (R13, R39). -/
def selectAction (sel : Option (Fin 32)) (s : State) : Action :=
  match sel with
  | some a => s.actions[a].act
  | none => Action.missDefault

/-- The copy of the bin rule an action names (R40). -/
def copyRule (a : Action) (s : State) : Option (Fin 8 × BinConfig) :=
  a.rule.map fun n => (n, s.rules[n].cfg)

/-- The charge of the meter an action names (R47). -/
def chargeAction (a : Action) (size : Nat) (s : State) : State × MeterOutcome :=
  match a.meter with
  | some m => chargeMeter m size s
  | none => (s, .absent)

/-- The class of the verdict (R50): an EXCEED with DEMOTE lowers it to NORMAL. -/
def verdictClass (a : Action) (o : MeterOutcome) : CellClass :=
  if o = .exceed .demote then .normal else a.cls

/-- Classification, the copies and the charge, in the order of R14: the state and the verdict. -/
def formVerdict (l : Latched) (buf : List Byte) (s : State) : State × Verdict :=
  let hit := findHit (keyOf l buf) s
  let s1 := match hit with
    | some i => recordHit i s
    | none => s
  let sel := match hit with
    | some i => some s.entries[i].action
    | none => s.settings.missAction
  let a := selectAction sel s1
  let c := chargeAction a (cellSize l.header.length) s1
  (c.1, ⟨hit, sel, a, copyRule a s1, c.2, verdictClass a c.2⟩)

/-- The verdict of the cell in reception, formed at key-complete if the cell has not reached it yet (R101); it is
formed once (R96). -/
def reachVerdict (r : Reception) (l : Latched) (s : State) : State × Verdict :=
  match l.verdict with
  | some v => (s, v)
  | none =>
    let f := formVerdict l r.buf s
    ({ f.1 with tailRx := .receiving { r with hdr := some { l with verdict := some f.2 } } }, f.2)

/-- Key-complete (R101): the verdict of the reception record is formed. -/
def keyComplete (r : Reception) (l : Latched) (s : State) : State := (reachVerdict r l s).1

/-! ### Start-of-cell, bytes and header-complete (R97, R99) -/

/-- Start-of-cell on Tail (R97). -/
def tailStartOfCell (s : State) : State :=
  match s.tailRx with
  | .idle =>
    let s' := s.count .started
    if 0 < s.freeBuffers then
      { s' with freeBuffers := s.freeBuffers - 1, tailRx := .receiving ⟨[], none⟩ }
    else occur .poolExhausted 0 ({ s' with tailRx := .discarding }.count .poolDropped)
  | .receiving _ => s
  | .discarding => s

/-- The cell's buffer is freed and the receive side takes the state `x` (R94). -/
def freeReception (x : TailRx) (s : State) : State :=
  { s with freeBuffers := s.freeBuffers + 1, tailRx := x }

/-- Header-complete in RECEIVING (R99); with length 0, key-complete in the same event. -/
def tailHeaderComplete (r : Reception) (s : State) : State :=
  let h := headerOf r.buf
  if s.tailPort.cellBad || !headerCheckPasses r.buf || decide (48 < h.length) then
    freeReception .discarding (s.count .headerBad)
  else
    let p0 := s.settings.probe0Offset
    let p1 := s.settings.probe1Offset
    let l : Latched := ⟨h, p0, p1, keyPoint h.length p0 p1, none⟩
    let r' : Reception := { r with hdr := some l }
    let s' := { s with tailRx := .receiving r' }
    if l.keyBytes = 0 then keyComplete r' l s' else s'

/-- A byte of the cell in reception on Tail (R188, R96): stored while the buffer has room, with header-complete
at the sixth and key-complete at the key-complete point. A code violation stands as 0x00 (R190). -/
def tailByte (b : Byte) (s : State) : State :=
  match s.tailRx with
  | .receiving r =>
    if r.buf.length < 56 then
      let r' : Reception := { r with buf := r.buf ++ [b] }
      let s' := { s with tailRx := .receiving r' }
      match r.hdr with
      | none => if r'.buf.length = 6 then tailHeaderComplete r' s' else s'
      | some l => if r'.buf.length = 6 + l.keyBytes then keyComplete r' l s' else s'
    else s
  | .idle => s
  | .discarding => s

/-! ### End-of-cell (R102 to R106) -/

/-- The payload check of a cell (R102): the byte count, the check bytes, and no code violation (R190).
`received` counts every symbol of the cell. -/
def payloadPasses (received : Nat) (bad : Bool) (length : Nat) (buf : List Byte) : Bool :=
  !bad &&
    if length = 0 then received == 6
    else received == 6 + length + 2 &&
      argWord buf (6 + length) == (payloadCheck (payloadOf buf length)).toNat

/-- The outcome of a cell whose payload check passed (R104). -/
def decideOutcome (v : Verdict) (s : State) : CellOutcome :=
  if v.act.disposition = .discard ∨ v.act.disposition = .captureDiscard then .actionDiscarded
  else if v.meter = .exceed .drop then .meterDropped
  else if v.cls = .urgent then .forwardedUrgent
  else if s.normal.length < s.settings.normalLimit then .forwardedNormal
  else .queueDropped

/-- The counter and the occurrence the outcome step raises (R104, R111). -/
def countOutcome (o : CellOutcome) (s : State) : State :=
  match o with
  | .actionDiscarded => s.count .actionDiscarded
  | .meterDropped => s.count .meterDropped
  | .queueDropped => occur .poolExhausted 1 (s.count .queueDropped)
  | .forwardedUrgent => s
  | .forwardedNormal => s

/-- The header a queued cell leaves with (R41). -/
def rewritten (a : Action) (buf : Cell) : Cell :=
  match a.rewrite with
  | some ch => rewriteChannel ch buf
  | none => buf

/-- The close of the end-of-cell event (R105): the cell joins its queue or its buffer is freed, the held entry
is released, and the receive side enters IDLE. -/
def closeCell (o : CellOutcome) (cell : Cell) (s : State) : State :=
  let s' := releaseHeld s
  match o with
  | .forwardedUrgent => { s' with urgent := s'.urgent ++ [cell], tailRx := .idle }
  | .forwardedNormal => { s' with normal := s'.normal ++ [cell], tailRx := .idle }
  | .actionDiscarded => freeReception .idle s'
  | .meterDropped => freeReception .idle s'
  | .queueDropped => freeReception .idle s'

/-- Bin counting by the verdict's copy, if it holds one (R103, step 1). -/
def countVerdict (v : Verdict) (h : Header) (buf : List Byte) (s : State) : State :=
  match v.rule with
  | some (n, c) => countCell n c h buf s
  | none => s

/-- End-of-cell with the payload check passed: the five steps of R103. -/
def disposeCell (v : Verdict) (h : Header) (buf : List Byte) (s : State) : State :=
  let s1 := countVerdict v h buf s
  let o := decideOutcome v s1
  let s2 := countOutcome o s1
  let s3 := captureCell v o h buf s2
  closeCell o (rewritten v.act buf) s3

/-- The cell in reception fails at its end, counted by `c` (R100, R102, R107). -/
def failReception (c : Counter) (s : State) : State :=
  freeReception .idle (releaseHeld (s.count c))

/-- The end of a cell past header-complete, its payload check decided as `ok` (R102, R103); a cell that has not
reached key-complete reaches it first (R101). -/
def endReception (ok : Bool) (r : Reception) (l : Latched) (s : State) : State :=
  let f := reachVerdict r l s
  if ok then disposeCell f.2 l.header r.buf f.1 else failReception .payloadBad f.1

/-- End-of-cell on Tail; `ok` answers the payload check for a length and a buffer (R100, R102, R106). -/
def tailEnd (ok : Nat → List Byte → Bool) (s : State) : State :=
  match s.tailRx with
  | .receiving r =>
    match r.hdr with
    | none => failReception .headerBad s
    | some l => endReception (ok l.header.length r.buf) r l s
  | .idle => s
  | .discarding => { s with tailRx := .idle }

/-- End-of-cell at an end delimiter: the port decides the payload check (R191). -/
def tailEndOfCell (s : State) : State :=
  tailEnd (payloadPasses s.tailPort.cellBytes s.tailPort.cellBad) s

/-- The cell in reception ends as a failed cell (R98, R189). -/
def tailFail (s : State) : State := tailEnd (fun _ _ => false) s

/-- Abort on Tail (R107). -/
def tailAbort (s : State) : State :=
  match s.tailRx with
  | .receiving _ => failReception .rxAborted s
  | .idle => s
  | .discarding => { s with tailRx := .idle }

end Sys2Proof.Machine
end

