-- ==== Sys2Proof/Machine/Management.lean ====
section
/-! DEFINITION. The management block (09): request kinds, the taking of a request, replies and their memory. -/

namespace Sys2Proof.Machine

/-! ### Request kinds (R215) -/

/-- The 27 request kinds (R215). -/
inductive Kind where
  | ping
  | identRead
  | addressAssign
  | settingWrite
  | settingRead
  | entryWrite
  | entryRead
  | batchActivate
  | entryRetire
  | batchRetire
  | batchDiscard
  | actionWrite
  | actionRead
  | actionClear
  | meterWrite
  | meterRead
  | binruleWrite
  | binruleRead
  | binsRead
  | binsReadClear
  | binsClear
  | captureFetch
  | captureRelease
  | reportAck
  | statsRead
  | statsClear
  | deviceReset
  deriving DecidableEq, Repr

/-- The code of a kind and the least payload length it needs (R215). -/
def Kind.codeAndLeast : Kind → Byte × Nat
  | .ping => (1, 2)
  | .identRead => (2, 2)
  | .addressAssign => (3, 3)
  | .settingWrite => (4, 5)
  | .settingRead => (5, 3)
  | .entryWrite => (6, 21)
  | .entryRead => (7, 3)
  | .batchActivate => (8, 4)
  | .entryRetire => (9, 3)
  | .batchRetire => (10, 3)
  | .batchDiscard => (11, 3)
  | .actionWrite => (12, 9)
  | .actionRead => (13, 3)
  | .actionClear => (14, 3)
  | .meterWrite => (15, 9)
  | .meterRead => (16, 3)
  | .binruleWrite => (17, 16)
  | .binruleRead => (18, 3)
  | .binsRead => (19, 6)
  | .binsReadClear => (20, 6)
  | .binsClear => (21, 6)
  | .captureFetch => (22, 3)
  | .captureRelease => (23, 4)
  | .reportAck => (24, 3)
  | .statsRead => (25, 3)
  | .statsClear => (26, 2)
  | .deviceReset => (27, 2)

/-- The code of a kind (R215). -/
def Kind.code (k : Kind) : Byte := k.codeAndLeast.1

/-- The least payload length of a kind (R215). -/
def Kind.least (k : Kind) : Nat := k.codeAndLeast.2

/-- All kinds, in the order of their codes. -/
def allKinds : List Kind :=
  [.ping, .identRead, .addressAssign, .settingWrite, .settingRead, .entryWrite, .entryRead, .batchActivate,
    .entryRetire, .batchRetire, .batchDiscard, .actionWrite, .actionRead, .actionClear, .meterWrite,
    .meterRead, .binruleWrite, .binruleRead, .binsRead, .binsReadClear, .binsClear, .captureFetch,
    .captureRelease, .reportAck, .statsRead, .statsClear, .deviceReset]

/-- The kind a code names; codes 0 and 28 to 255 name none (R215). -/
def kindOf (code : Byte) : Option Kind := allKinds.find? fun k => k.code == code

/-- The kinds executed as broadcasts (R163). -/
def Kind.broadcast : Kind → Bool
  | .batchActivate => true
  | .batchRetire => true
  | .batchDiscard => true
  | .statsClear => true
  | .deviceReset => true
  | .ping => true
  | _ => false

/-! ### The requests this chapter owns (R165 to R168, R173) -/

/-- PING (R165): the line time at the taking and up to 40 echo bytes. -/
def answerPing (args : List Byte) (s : State) : Answer := ⟨s, .ok, bytes32 s.lineTime ++ args.take 40⟩

/-- IDENT_READ (R166, R216). -/
def answerIdentRead (_args : List Byte) (s : State) : Answer :=
  ⟨s, .ok, bytes16 0x0240 ++ [1, 64, 32, 16, 8] ++ bytes16 1024 ++ [8, 24, 16]⟩

/-- ADDRESS_ASSIGN (R168). -/
def answerAddressAssign (args : List Byte) (s : State) : Answer :=
  if argNat args 0 < 0x01 ∨ 0xEF < argNat args 0 then refusal .badValue s
  else ⟨{ s with nodeAddress := some (argByte args 0) }, .ok, [addressCode s.nodeAddress, argByte args 0]⟩

/-- The answer to an addressed DEVICE_RESET of an assigned part (R173): reset pending becomes yes; the device
reset waits for the end of the reply. -/
def answerDeviceReset (_args : List Byte) (s : State) : Answer := ⟨{ s with resetPending := true }, .ok, []⟩

/-! ### Execution (R155) -/

/-- The owning rule of each kind (09, table of 9.7). -/
def ownerAnswer (k : Kind) (args : List Byte) (s : State) : Answer :=
  match k with
  | .ping => answerPing args s
  | .identRead => answerIdentRead args s
  | .addressAssign => answerAddressAssign args s
  | .settingWrite => answerSettingWrite args s
  | .settingRead => answerSettingRead args s
  | .entryWrite => answerEntryWrite args s
  | .entryRead => answerEntryRead args s
  | .batchActivate => answerBatchActivate args s
  | .entryRetire => answerEntryRetire args s
  | .batchRetire => answerBatchRetire args s
  | .batchDiscard => answerBatchDiscard args s
  | .actionWrite => answerActionWrite args s
  | .actionRead => answerActionRead args s
  | .actionClear => answerActionClear args s
  | .meterWrite => answerMeterWrite args s
  | .meterRead => answerMeterRead args s
  | .binruleWrite => answerBinruleWrite args s
  | .binruleRead => answerBinruleRead args s
  | .binsRead => answerBinsRead args s
  | .binsReadClear => answerBinsReadClear args s
  | .binsClear => answerBinsClear args s
  | .captureFetch => answerCaptureFetch args s
  | .captureRelease => answerCaptureRelease args s
  | .reportAck => answerReportAck args s
  | .statsRead => answerStatsRead args s
  | .statsClear => answerStatsClear args s
  | .deviceReset => answerDeviceReset args s

/-- The execution of a request: the kind and the payload length first, then the owning rule (R155, R156). -/
def executeRequest (code : Byte) (args : List Byte) (s : State) : Answer :=
  match kindOf code with
  | none => refusal .badRequest s
  | some k =>
    if args.length + 2 < k.least then ⟨s, .badLength, [byteOf k.least]⟩ else ownerAnswer k args s

/-! ### Taking a request (R153 to R163) -/

/-- The reply memory after one more executed request (R157). -/
def storeMemory (m : MemoryRecord) (l : List MemoryRecord) : List MemoryRecord :=
  if l.any fun x => x.tag == m.tag then l.filter (fun x => x.tag != m.tag) ++ [m]
  else if Config.memoryPlaces ≤ l.length then l.drop 1 ++ [m]
  else l ++ [m]

/-- The reply and the memory record of an executed request, and its count at the close of the taking
(R156, R157, R159). -/
def reply (code tag : Byte) (mark : Bool) (a : Answer) : State :=
  ({ a.st with
      replies := a.st.replies ++ [⟨code, tag, a.status, a.results, mark, false⟩]
      memory := storeMemory ⟨tag, code, a.status, a.results⟩ a.st.memory } : State).count .requestsTaken

/-- A replayed request: a fresh copy of the stored reply (R158). -/
def replay (m : MemoryRecord) (s : State) : State :=
  (({ s with replies := s.replies ++ [⟨m.kind, m.tag, m.status, m.results, false, false⟩] } : State).count
    .requestsTaken).count .replays

/-- The record of the reply memory with this tag and kind (R154). -/
def stored (code tag : Byte) (s : State) : Option MemoryRecord :=
  s.memory.find? fun m => m.tag == tag && m.kind == code

/-- An addressed request is executed (R154, case 4): a DEVICE_RESET taken while the node address is UNASSIGNED
takes effect at once, without a reply (R176); one taken while it is assigned has the reset mark (R173). -/
def executeAddressed (code tag : Byte) (args : List Byte) (s : State) : State :=
  if code = Kind.deviceReset.code ∧ s.nodeAddress = none then deviceReset s
  else reply code tag (code == Kind.deviceReset.code) (executeRequest code args s)

/-- The taking of an addressed request (R154). -/
def takeAddressed (code tag : Byte) (args : List Byte) (s : State) : State :=
  if s.resetPending then s.count .mgmtDropped
  else if Config.replyPlaces ≤ s.replies.length then s.count .mgmtDropped
  else
    match stored code tag s with
    | some m => replay m s
    | none => executeAddressed code tag args s

/-- A broadcast request is executed (R163, R164): DEVICE_RESET takes effect at the taking (R177). -/
def executeBroadcast (k : Kind) (args : List Byte) (s : State) : State :=
  if k = .deviceReset then deviceReset s
  else
    let a := executeRequest k.code args s
    let s' := a.st.count .requestsTaken
    if a.status = .ok then s' else s'.count .broadcastFailed

/-- The taking of a broadcast request (R163). -/
def takeBroadcast (code : Byte) (args : List Byte) (s : State) : State :=
  if s.resetPending then s.count .mgmtDropped
  else
    match kindOf code with
    | some k => if k.broadcast then executeBroadcast k args s else s.count .broadcastRefused
    | none => s.count .broadcastRefused

/-- The taking of a request with a kind code, a tag and arguments (R154, R163). -/
def takeRequest (f : Form) (code tag : Byte) (args : List Byte) (s : State) : State :=
  match f with
  | .addressed => takeAddressed code tag args s
  | .broadcast => takeBroadcast code args s

/-- A request cell's payload is handed to the management block (R153): under 2 bytes it is dropped. -/
def takePayload (f : Form) (payload : List Byte) (s : State) : State :=
  match payload with
  | code :: tag :: args => takeRequest f code tag args s
  | _ => s.count .mgmtDropped

/-- A request command: the taking of a request of this kind and the decisions at its close (log 2). By R181 no request
arrives while the Head port is not UP; one that is commanded then is taken all the same (log 23, DESIGN CHOICE). -/
def takeKind (k : Kind) (f : Form) (tag : Byte) (args : List Byte) (s : State) : Result :=
  .next (unlessHeld (fun s => settle (takeRequest f k.code tag args s)) s)

/-! ### The request commands -/

/-- PING (R165). -/
def execPing (f : Form) (tag : Byte) (args : List Byte) (s : State) : Result := takeKind .ping f tag args s

/-- IDENT_READ (R166). -/
def execIdentRead (f : Form) (tag : Byte) (args : List Byte) (s : State) : Result :=
  takeKind .identRead f tag args s

/-- ADDRESS_ASSIGN (R168). -/
def execAddressAssign (f : Form) (tag : Byte) (args : List Byte) (s : State) : Result :=
  takeKind .addressAssign f tag args s

/-- SETTING_WRITE (R170, R171). -/
def execSettingWrite (f : Form) (tag : Byte) (args : List Byte) (s : State) : Result :=
  takeKind .settingWrite f tag args s

/-- SETTING_READ (R172). -/
def execSettingRead (f : Form) (tag : Byte) (args : List Byte) (s : State) : Result :=
  takeKind .settingRead f tag args s

/-- ENTRY_WRITE (R15, R16). -/
def execEntryWrite (f : Form) (tag : Byte) (args : List Byte) (s : State) : Result :=
  takeKind .entryWrite f tag args s

/-- ENTRY_READ (R17). -/
def execEntryRead (f : Form) (tag : Byte) (args : List Byte) (s : State) : Result :=
  takeKind .entryRead f tag args s

/-- BATCH_ACTIVATE (R22, R23). -/
def execBatchActivate (f : Form) (tag : Byte) (args : List Byte) (s : State) : Result :=
  takeKind .batchActivate f tag args s

/-- ENTRY_RETIRE (R19). -/
def execEntryRetire (f : Form) (tag : Byte) (args : List Byte) (s : State) : Result :=
  takeKind .entryRetire f tag args s

/-- BATCH_RETIRE (R20). -/
def execBatchRetire (f : Form) (tag : Byte) (args : List Byte) (s : State) : Result :=
  takeKind .batchRetire f tag args s

/-- BATCH_DISCARD (R21). -/
def execBatchDiscard (f : Form) (tag : Byte) (args : List Byte) (s : State) : Result :=
  takeKind .batchDiscard f tag args s

/-- ACTION_WRITE (R35, R36). -/
def execActionWrite (f : Form) (tag : Byte) (args : List Byte) (s : State) : Result :=
  takeKind .actionWrite f tag args s

/-- ACTION_READ (R37). -/
def execActionRead (f : Form) (tag : Byte) (args : List Byte) (s : State) : Result :=
  takeKind .actionRead f tag args s

/-- ACTION_CLEAR (R38). -/
def execActionClear (f : Form) (tag : Byte) (args : List Byte) (s : State) : Result :=
  takeKind .actionClear f tag args s

/-- METER_WRITE (R54, R55). -/
def execMeterWrite (f : Form) (tag : Byte) (args : List Byte) (s : State) : Result :=
  takeKind .meterWrite f tag args s

/-- METER_READ (R56). -/
def execMeterRead (f : Form) (tag : Byte) (args : List Byte) (s : State) : Result :=
  takeKind .meterRead f tag args s

/-- BINRULE_WRITE (R69, R70). -/
def execBinruleWrite (f : Form) (tag : Byte) (args : List Byte) (s : State) : Result :=
  takeKind .binruleWrite f tag args s

/-- BINRULE_READ (R71). -/
def execBinruleRead (f : Form) (tag : Byte) (args : List Byte) (s : State) : Result :=
  takeKind .binruleRead f tag args s

/-- BINS_READ (R73). -/
def execBinsRead (f : Form) (tag : Byte) (args : List Byte) (s : State) : Result :=
  takeKind .binsRead f tag args s

/-- BINS_READ_CLEAR (R74). -/
def execBinsReadClear (f : Form) (tag : Byte) (args : List Byte) (s : State) : Result :=
  takeKind .binsReadClear f tag args s

/-- BINS_CLEAR (R75). -/
def execBinsClear (f : Form) (tag : Byte) (args : List Byte) (s : State) : Result :=
  takeKind .binsClear f tag args s

/-- CAPTURE_FETCH (R87, R88). -/
def execCaptureFetch (f : Form) (tag : Byte) (args : List Byte) (s : State) : Result :=
  takeKind .captureFetch f tag args s

/-- CAPTURE_RELEASE (R89). -/
def execCaptureRelease (f : Form) (tag : Byte) (args : List Byte) (s : State) : Result :=
  takeKind .captureRelease f tag args s

/-- REPORT_ACK (R144). -/
def execReportAck (f : Form) (tag : Byte) (args : List Byte) (s : State) : Result :=
  takeKind .reportAck f tag args s

/-- STATS_READ (R202). -/
def execStatsRead (f : Form) (tag : Byte) (args : List Byte) (s : State) : Result :=
  takeKind .statsRead f tag args s

/-- STATS_CLEAR (R203). -/
def execStatsClear (f : Form) (tag : Byte) (args : List Byte) (s : State) : Result :=
  takeKind .statsClear f tag args s

/-- DEVICE_RESET (R173, R176, R177). -/
def execDeviceReset (f : Form) (tag : Byte) (args : List Byte) (s : State) : Result :=
  takeKind .deviceReset f tag args s

end Sys2Proof.Machine
end

