-- ==== Sys2Proof/Machine/Ports.lean ====
section
/-! DEFINITION. The link ports (10): link states, framing, the Head receive side and the downstream test, and
the commands that bring symbols. -/

namespace Sys2Proof.Machine

/-! ### The Head receive side and the downstream test (R193 to R195) -/

/-- Start-of-cell on Head (R193). -/
def headStartOfCell (s : State) : State :=
  match s.headRx with
  | .idle => { s with headRx := .receiving [] }
  | .receiving _ => s
  | .discarding => s

/-- Header-complete on Head (R193). -/
def headHeaderComplete (buf : List Byte) (s : State) : State :=
  if s.headPort.cellBad || !headerCheckPasses buf || decide (48 < (headerOf buf).length) then
    { s with headRx := .discarding }.count .badDown
  else s

/-- A byte of the cell in reception on Head (R188, R193). -/
def headByte (b : Byte) (s : State) : State :=
  match s.headRx with
  | .receiving buf =>
    if buf.length < 56 then
      let buf' := buf ++ [b]
      let s' := { s with headRx := .receiving buf' }
      if buf'.length = 6 then headHeaderComplete buf' s' else s'
    else s
  | .idle => s
  | .discarding => s

/-- A cell to be forwarded joins the downstream queue, or is dropped (R195). -/
def joinDownstream (cell : Cell) (s : State) : State :=
  if s.downQueue.length < Config.downBuffers then { s with downQueue := s.downQueue ++ [cell] }
  else s.count .droppedDown

/-- What the downstream test does with a good cell (R194). -/
inductive DownstreamTest where
  | take
  | forward
  | forwardAndTake
  deriving DecidableEq, Repr

/-- The downstream test of a good cell, by its kind and dest and the node address (R192, R194). -/
def downstreamTest (h : Header) (addr : Option Byte) : DownstreamTest :=
  if h.kind ≠ kindMgmtReq then .forward
  else if h.dest = 0xFF then .forwardAndTake
  else if addr = some h.dest then .take
  else if h.dest = 0xFE ∧ addr = none then .take
  else .forward

/-- A good cell on Head: received and taken rise, then the cell is forwarded, handed over, or both, in the
order of R194. -/
def acceptDownstream (cell : Cell) (s : State) : State :=
  let h := headerOf cell
  let payload := payloadOf cell h.length
  match downstreamTest h s.nodeAddress with
  | .take => takePayload .addressed payload ((s.count .received).count .taken)
  | .forward => joinDownstream cell (s.count .received)
  | .forwardAndTake =>
    takePayload .broadcast payload (joinDownstream cell ((s.count .received).count .taken))

/-- End-of-cell on Head; `ok` answers the payload check for a length and a buffer (R193). -/
def headEnd (ok : Nat → List Byte → Bool) (s : State) : State :=
  match s.headRx with
  | .receiving buf =>
    let s' := { s with headRx := .idle }
    if buf.length < 6 then s'.count .badDown
    else if ok (headerOf buf).length buf then acceptDownstream buf s'
    else s'.count .badDown
  | .idle => s
  | .discarding => { s with headRx := .idle }

/-- Abort on Head (R193). -/
def headAbort (s : State) : State :=
  match s.headRx with
  | .receiving _ => { s with headRx := .idle }.count .badDown
  | .idle => s
  | .discarding => { s with headRx := .idle }

/-! ### The events a port presents (R191) -/

/-- Start-of-cell at a port. -/
def startEvent (p : Side) (s : State) : State :=
  match p with
  | .head => headStartOfCell s
  | .tail => tailStartOfCell s

/-- A byte of the cell in reception at a port. -/
def byteEvent (p : Side) (b : Byte) (s : State) : State :=
  match p with
  | .head => headByte b s
  | .tail => tailByte b s

/-- End-of-cell at a port, by an end delimiter. -/
def endEvent (p : Side) (s : State) : State :=
  match p with
  | .head => headEnd (payloadPasses s.headPort.cellBytes s.headPort.cellBad) s
  | .tail => tailEndOfCell s

/-- The cell in reception at a port ends as a failed cell (R189). -/
def failEvent (p : Side) (s : State) : State :=
  match p with
  | .head => headEnd (fun _ _ => false) s
  | .tail => tailFail s

/-- The cell in reception at a port is aborted (R186). -/
def abortEvent (p : Side) (s : State) : State :=
  match p with
  | .head => headAbort s
  | .tail => tailAbort s

/-- The transmission at a port ends by transmit-abort, if one is under way (R186). -/
def abortTransmission (p : Side) (s : State) : State :=
  match p with
  | .head => headTxEnd .abort s
  | .tail => tailTxEnd .abort s

/-- The subject of a port's LINK_CHANGED (R185). -/
def linkSubject : Side → Nat
  | .head => 0
  | .tail => 1

/-! ### Entering and leaving UP (R185, R186) -/

/-- A port enters UP (R185); the decisions it brings about fall at the close of the event. -/
def enterUp (p : Side) (s : State) : State :=
  occur .linkChanged (linkSubject p)
    (s.setPort p { s.port p with link := .up, run := 8, violations := 0, position := .between, upPin := true })

/-- A port leaves UP for the link state `after`: a port realignment (R186). The parts fall in the order the rule
lists them (log 8). -/
def leaveUp (p : Side) (after : LinkState) (s : State) : State :=
  let x := s.port p
  let s1 := s.setPort p
    { x with link := after, run := if after = .aligning then 0 else x.run, upPin := false }
  let s2 := if x.position = .inCell then abortEvent p s1 else s1
  occur .linkChanged (linkSubject p) (abortTransmission p s2)

/-! ### Symbols (R184, R188) -/

/-- A framing violation that moves the framing position to `pos` (R189): the third in a row leaves UP; another
one fails a cell in reception. -/
def framingViolation (p : Side) (pos : FramingPosition) (s : State) : State :=
  let x := s.port p
  if 2 ≤ x.violations then leaveUp p .aligning s
  else
    let s' := s.setPort p { x with violations := x.violations + 1, position := pos }
    if x.position = .inCell then failEvent p s' else s'

/-- A start delimiter brings start-of-cell: the count and the mark of the new cell begin (R188). -/
def beginCell (p : Side) (s : State) : State :=
  startEvent p (s.setPort p { s.port p with position := .inCell, cellBytes := 0, cellBad := false })

/-- A symbol between cells (R188). -/
def symbolBetween (p : Side) (y : Symbol) (s : State) : State :=
  match y with
  | .alignment => s
  | .startDelimiter => beginCell p s
  | .data _ => framingViolation p .hunting s
  | .endDelimiter => framingViolation p .hunting s
  | .violation => framingViolation p .hunting s

/-- A symbol within a cell (R188). A start delimiter ends the cell as a failed cell and begins another, unless
the port has left UP (R189). -/
def symbolInCell (p : Side) (y : Symbol) (s : State) : State :=
  let x := s.port p
  match y with
  | .data b =>
    if 56 ≤ x.cellBytes then framingViolation p .hunting s
    else byteEvent p b (s.setPort p { x with cellBytes := x.cellBytes + 1 })
  | .violation => byteEvent p 0 (s.setPort p { x with cellBytes := x.cellBytes + 1, cellBad := true })
  | .endDelimiter => endEvent p (s.setPort p { x with violations := 0, position := .between })
  | .startDelimiter =>
    let s' := framingViolation p .inCell s
    if (s'.port p).link = .up then beginCell p s' else s'
  | .alignment => framingViolation p .between s

/-- A symbol while HUNTING (R188). -/
def symbolHunting (p : Side) (y : Symbol) (s : State) : State :=
  match y with
  | .startDelimiter => beginCell p s
  | .alignment => s.setPort p { s.port p with position := .between }
  | .data _ => s
  | .endDelimiter => s
  | .violation => s

/-- A symbol while ALIGNING serves the alignment run alone (R184). -/
def symbolAligning (p : Side) (y : Symbol) (s : State) : State :=
  let x := s.port p
  if y = .alignment then
    if x.run + 1 < 8 then s.setPort p { x with run := x.run + 1 } else enterUp p s
  else s.setPort p { x with run := 0 }

/-- A symbol arrives at a port (R184, R188); a DOWN port receives none. -/
def receive (p : Side) (y : Symbol) (s : State) : State :=
  match (s.port p).link with
  | .down => s
  | .aligning => symbolAligning p y s
  | .up =>
    match (s.port p).position with
    | .between => symbolBetween p y s
    | .inCell => symbolInCell p y s
    | .hunting => symbolHunting p y s

/-- Signal is detected on a port's receive pair (R184). -/
def detectSignal (p : Side) (s : State) : State :=
  match (s.port p).link with
  | .down => s.setPort p { s.port p with link := .aligning, run := 0 }
  | .aligning => s
  | .up => s

/-- Signal is lost on a port's receive pair (R184, R186). -/
def loseSignal (p : Side) (s : State) : State :=
  match (s.port p).link with
  | .down => s
  | .aligning => s.setPort p { s.port p with link := .down }
  | .up => leaveUp p .down s

/-- A symbol command: the symbol's event and the decisions at its close. -/
def symbolCommand (p : Side) (y : Symbol) (s : State) : Result :=
  .next (unlessHeld (fun s => settle (receive p y s)) s)

/-! ### The commands -/

/-- SIGNAL_DETECTED (R184). -/
def execSignalDetected (p : Side) (s : State) : Result := .next (unlessHeld (detectSignal p) s)

/-- LOSS_OF_SIGNAL (R184, R186). -/
def execLossOfSignal (p : Side) (s : State) : Result :=
  .next (unlessHeld (fun s => settle (loseSignal p s)) s)

/-- ALIGNMENT_WORD (R184, R188). -/
def execAlignmentWord (p : Side) (s : State) : Result := symbolCommand p .alignment s

/-- DATA_BYTE (R188), with the header-complete or key-complete the byte brings. -/
def execDataByte (p : Side) (b : Byte) (s : State) : Result := symbolCommand p (.data b) s

/-- CODE_VIOLATION (R188, R190). -/
def execCodeViolation (p : Side) (s : State) : Result := symbolCommand p .violation s

/-- START_OF_CELL: the start delimiter on Tail (R97, R98, R188). -/
def execStartOfCell (s : State) : Result := symbolCommand .tail .startDelimiter s

/-- HEADER_COMPLETE: the data byte on Tail that is the sixth of its cell (R99; log 1). -/
def execHeaderComplete (b : Byte) (s : State) : Result := symbolCommand .tail (.data b) s

/-- KEY_COMPLETE: the data byte on Tail that is the last the key needs (R101; log 1). -/
def execKeyComplete (b : Byte) (s : State) : Result := symbolCommand .tail (.data b) s

/-- END_OF_CELL: the end delimiter on Tail (R102, R103, R188). -/
def execEndOfCell (s : State) : Result := symbolCommand .tail .endDelimiter s

/-- HEAD_START_OF_CELL: the start delimiter on Head (R193, R188). -/
def execHeadStartOfCell (s : State) : Result := symbolCommand .head .startDelimiter s

/-- HEAD_HEADER_COMPLETE: the data byte on Head that is the sixth of its cell (R193; log 1). -/
def execHeadHeaderComplete (b : Byte) (s : State) : Result := symbolCommand .head (.data b) s

/-- HEAD_END_OF_CELL: the end delimiter on Head (R193, R194, R188). -/
def execHeadEndOfCell (s : State) : Result := symbolCommand .head .endDelimiter s

end Sys2Proof.Machine
end

