-- ==== Sys2Proof/Machine/Timebase.lean ====
section
/-! DEFINITION. The time base (R45, R143, R208, R209): the tick of the line time and the two kinds of expiry. -/

namespace Sys2Proof.Machine

/-- The refill expiry, if it is due (R45; log 5, log 6). -/
def expireRefill (s : State) : State := if s.refillLeft = 0 then refillAll s else s

/-- REFILL_EXPIRY (R46). -/
def execRefillExpiry (s : State) : Result := .next (unlessHeld expireRefill s)

/-- REPORT_TIMER_EXPIRY of the SENT record with sequence `q` (R143), with the grant decision it brings about. Where `q` is
abandoned and the counter stands at `q`, that decision gives `q` to the oldest WAITING record (R140), and a REPORT_ACK of
`q` removes that record (R144), though R143 and R146 answer it NOT_FOUND (log 28, DESIGN CHOICE). -/
def execReportTimerExpiry (q : Byte) (s : State) : Result :=
  .next (unlessHeld (fun s => settle (expireSequence q s)) s)

/-- The sequences of the records whose deadline the line time has reached and whose timer has not expired. -/
def overdueSequences (s : State) : List Byte :=
  (s.sent.filter fun r => r.expires s.lineTime).map SentReport.seq

/-- Every overdue report timer expires, each as an event of its own, in the order of the records
(log 6, log 7). -/
def expireOverdue (s : State) : State :=
  (overdueSequences s).foldl (fun t q => settle (expireSequence q t)) s

/-- The step of the line time (R208): the refill interval counts down on the same time base (R209). -/
def advanceTime (s : State) : State :=
  { s with lineTime := s.lineTime + 1, refillLeft := s.refillLeft - 1 }

/-- LINE_TIME_TICK (R208). The expiries the moment before left undone fall first (log 6). -/
def execLineTimeTick (s : State) : Result :=
  .next (unlessHeld (fun s => advanceTime (expireOverdue (expireRefill s))) s)

end Sys2Proof.Machine
end

