-- ==== Sys2Proof/Machine/Dispatch.lean ====
section
/-! DEFINITION. The meaning of every command: one arm per row of spec/opcode_table.json. -/

namespace Sys2Proof.Machine

def exec (i : Instr) (s : State) : Host.Outcome State Fault Refusal :=
  match i with
  | .powerOnReset => Sys2Proof.Machine.execPowerOnReset s
  | .signalDetected p => Sys2Proof.Machine.execSignalDetected p s
  | .lossOfSignal p => Sys2Proof.Machine.execLossOfSignal p s
  | .alignmentWord p => Sys2Proof.Machine.execAlignmentWord p s
  | .dataByte p b => Sys2Proof.Machine.execDataByte p b s
  | .codeViolation p => Sys2Proof.Machine.execCodeViolation p s
  | .startOfCell => Sys2Proof.Machine.execStartOfCell s
  | .headerComplete b => Sys2Proof.Machine.execHeaderComplete b s
  | .keyComplete b => Sys2Proof.Machine.execKeyComplete b s
  | .endOfCell => Sys2Proof.Machine.execEndOfCell s
  | .headStartOfCell => Sys2Proof.Machine.execHeadStartOfCell s
  | .headHeaderComplete b => Sys2Proof.Machine.execHeadHeaderComplete b s
  | .headEndOfCell => Sys2Proof.Machine.execHeadEndOfCell s
  | .transmitStart => Sys2Proof.Machine.execTransmitStart s
  | .transmitComplete => Sys2Proof.Machine.execTransmitComplete s
  | .tailTransmitStart => Sys2Proof.Machine.execTailTransmitStart s
  | .tailTransmitComplete => Sys2Proof.Machine.execTailTransmitComplete s
  | .refillExpiry => Sys2Proof.Machine.execRefillExpiry s
  | .reportTimerExpiry seq => Sys2Proof.Machine.execReportTimerExpiry seq s
  | .ping f tag args => Sys2Proof.Machine.execPing f tag args s
  | .identRead f tag args => Sys2Proof.Machine.execIdentRead f tag args s
  | .addressAssign f tag args => Sys2Proof.Machine.execAddressAssign f tag args s
  | .settingWrite f tag args => Sys2Proof.Machine.execSettingWrite f tag args s
  | .settingRead f tag args => Sys2Proof.Machine.execSettingRead f tag args s
  | .entryWrite f tag args => Sys2Proof.Machine.execEntryWrite f tag args s
  | .entryRead f tag args => Sys2Proof.Machine.execEntryRead f tag args s
  | .batchActivate f tag args => Sys2Proof.Machine.execBatchActivate f tag args s
  | .entryRetire f tag args => Sys2Proof.Machine.execEntryRetire f tag args s
  | .batchRetire f tag args => Sys2Proof.Machine.execBatchRetire f tag args s
  | .batchDiscard f tag args => Sys2Proof.Machine.execBatchDiscard f tag args s
  | .actionWrite f tag args => Sys2Proof.Machine.execActionWrite f tag args s
  | .actionRead f tag args => Sys2Proof.Machine.execActionRead f tag args s
  | .actionClear f tag args => Sys2Proof.Machine.execActionClear f tag args s
  | .meterWrite f tag args => Sys2Proof.Machine.execMeterWrite f tag args s
  | .meterRead f tag args => Sys2Proof.Machine.execMeterRead f tag args s
  | .binruleWrite f tag args => Sys2Proof.Machine.execBinruleWrite f tag args s
  | .binruleRead f tag args => Sys2Proof.Machine.execBinruleRead f tag args s
  | .binsRead f tag args => Sys2Proof.Machine.execBinsRead f tag args s
  | .binsReadClear f tag args => Sys2Proof.Machine.execBinsReadClear f tag args s
  | .binsClear f tag args => Sys2Proof.Machine.execBinsClear f tag args s
  | .captureFetch f tag args => Sys2Proof.Machine.execCaptureFetch f tag args s
  | .captureRelease f tag args => Sys2Proof.Machine.execCaptureRelease f tag args s
  | .reportAck f tag args => Sys2Proof.Machine.execReportAck f tag args s
  | .statsRead f tag args => Sys2Proof.Machine.execStatsRead f tag args s
  | .statsClear f tag args => Sys2Proof.Machine.execStatsClear f tag args s
  | .deviceReset f tag args => Sys2Proof.Machine.execDeviceReset f tag args s
  | .lineTimeTick => Sys2Proof.Machine.execLineTimeTick s
  | .resetnHeldLow ns => Sys2Proof.Machine.execResetnHeldLow ns s

end Sys2Proof.Machine
end

