-- ==== Sys2Proof/Safety.lean ====
section
/-! DEFINITION. What the spec says holds of the part at every moment: the invariants that statements are made
of. -/

namespace Sys2Proof.Machine

/-- 1 if the Tail receive state is RECEIVING, otherwise 0 (R94, R112). -/
def receivingTerm (x : TailRx) : Nat :=
  match x with
  | .receiving _ => 1
  | .idle => 0
  | .discarding => 0

/-- 1 if the Head receive state is RECEIVING, otherwise 0 (R193). -/
def headReceivingTerm (x : HeadRx) : Nat :=
  match x with
  | .receiving _ => 1
  | .idle => 0
  | .discarding => 0

/-- R94: free buffers, the one in reception and the two queue lengths make 24. -/
def poolBalanced (s : State) : Prop :=
  s.freeBuffers + receivingTerm s.tailRx + s.urgent.length + s.normal.length = 24

/-- The left side of the equality of R112, modulo 2^32. -/
def startedSide (t : Stats) : Word32 := t.started + t.carried

/-- The counters on the right side of the equality of R112, modulo 2^32. -/
def endedSide (t : Stats) : Word32 :=
  t.headerBad + t.payloadBad + t.rxAborted + t.poolDropped + t.actionDiscarded + t.meterDropped +
    t.queueDropped + t.forwarded + t.txAborted

/-- R112: every cell started is counted once more, or is still held. -/
def upstreamBalanced (s : State) : Prop :=
  startedSide s.stats =
    endedSide s.stats + BitVec.ofNat 32 (receivingTerm s.tailRx + s.urgent.length + s.normal.length)

/-- The number of non-EMPTY entries that name a record, plus 1 if miss_action names it (R32). -/
def namings (a : Fin 32) (s : State) : Nat :=
  (List.finRange 64).countP (fun i => s.entries[i].state != .empty && s.entries[i].action == a) +
    (if s.settings.missAction = some a then 1 else 0)

/-- R32: every reference count is exact, and only defined records are named. -/
def refsExact (s : State) : Prop :=
  (∀ a : Fin 32, s.actions[a].refs = namings a s) ∧
    (∀ i : Fin 64, s.entries[i].state ≠ .empty → s.actions[s.entries[i].action].defined = true) ∧
    ∀ a : Fin 32, s.settings.missAction = some a → s.actions[a].defined = true

/-- R44: rate and burst lie in their ranges, and every credit lies between 0 and its burst. -/
def metersBounded (s : State) : Prop :=
  ∀ m : Fin 16, s.meters[m].credit ≤ s.meters[m].burst ∧ s.meters[m].rate ≤ 4095 ∧
    64 ≤ s.meters[m].burst ∧ s.meters[m].burst ≤ 16383

/-- The capture numbers of a ring of `n` records whose newest is one less than `next` (R81). -/
def ringNumbers (next : Word16) : Nat → List Word16
  | 0 => []
  | n + 1 => (next - BitVec.ofNat 16 (n + 1)) :: ringNumbers next n

/-- R81: at most 8 records, and their numbers, oldest first, are consecutive up to the next capture number. -/
def ringOrdered (s : State) : Prop :=
  s.captures.length ≤ 8 ∧ s.captures.map CaptureRecord.number = ringNumbers s.nextCapture s.captures.length

/-- R136: at most 16 records, at most 4 of them SENT, no two WAITING of one kind and subject, no two SENT of one
sequence. -/
def reportQueueBounded (s : State) : Prop :=
  s.waiting.length + s.sent.length ≤ 16 ∧ s.sent.length ≤ 4 ∧
    (s.waiting.map fun w => (w.kind, w.subject)).Nodup ∧ (s.sent.map SentReport.seq).Nodup

/-- R152, R157: at most 4 replies wait, the memory holds at most 4 records, and no two carry one tag. -/
def repliesBounded (s : State) : Prop :=
  s.replies.length ≤ 4 ∧ s.memory.length ≤ 4 ∧ (s.memory.map MemoryRecord.tag).Nodup

/-- R18: an entry is RETIRING only while it is the held entry of the cell in reception. -/
def retiringIsHeld (s : State) : Prop :=
  ∀ i : Fin 64, s.entries[i].state = .retiring → s.held = some i

/-- R9: an EMPTY entry has every other field 0. -/
def emptyIsCleared (s : State) : Prop :=
  ∀ i : Fin 64, s.entries[i].state = .empty → s.entries[i] = Entry.cleared

/-- R120, R129: while the transmitter is IDLE and the Head port is UP, no source offers a cell. -/
def grantsMade (s : State) : Prop :=
  s.headTx = .idle → s.headPort.link = .up → selectSource s = none

/-- R167: the node address is UNASSIGNED or lies between 0x01 and 0xEF. -/
def addressLegal (s : State) : Prop :=
  ∀ a : Byte, s.nodeAddress = some a → 0x01 ≤ a.toNat ∧ a.toNat ≤ 0xEF

/-- R206: every setting lies in its range. -/
def settingsInRange (s : State) : Prop :=
  s.settings.probe0Offset ≤ 47 ∧ s.settings.probe1Offset ≤ 47 ∧
    1 ≤ s.settings.normalLimit ∧ s.settings.normalLimit ≤ 23 ∧
    s.settings.refillInterval ∈ [50, 100, 200, 500] ∧
    1 ≤ s.settings.reportTimeout ∧ s.settings.reportTimeout ≤ 255 ∧
    1 ≤ s.settings.starvationLimit ∧ s.settings.starvationLimit ≤ 255

/-- R122: the starvation count stays within 0 to 255. -/
def starvationBounded (s : State) : Prop := s.starvation ≤ 255

/-- R182, R185, R186, R210: one port's counts lie in their ranges, its UP pin is driven exactly while it is UP
and RESETN does not hold the part, and its transmit pair sends symbols unless RESETN holds the part. -/
def portLegal (held : Bool) (x : Port) : Prop :=
  x.run ≤ 8 ∧ x.violations ≤ 2 ∧ (x.upPin = true ↔ x.link = .up ∧ held = false) ∧ x.txDriven = !held

/-- Both ports are legal. -/
def portsLegal (s : State) : Prop :=
  portLegal s.resetHeld s.headPort ∧ portLegal s.resetHeld s.tailPort

/-! ### Further invariants -/

/-- R185, R196: while the Tail transmitter is IDLE and the Tail port is UP, the downstream queue is empty. -/
def tailStarted (s : State) : Prop := s.tailTx = .idle → s.tailPort.link = .up → s.downQueue = []

/-- R183: a port sends cells only while it is UP. -/
def sendsCellsWhileUp (s : State) : Prop :=
  (s.headTx ≠ .idle → s.headPort.link = .up) ∧ (s.tailTx = .sending → s.tailPort.link = .up)

/-- R195: the downstream queue holds at most 4 cells, and one that is in transmission is among them. -/
def downstreamBounded (s : State) : Prop := s.downQueue.length ≤ 4 ∧ (s.tailTx = .sending → s.downQueue ≠ [])

/-- R31: an undefined record has its zero fields, and nothing counts as naming it. -/
def undefinedIsZero (s : State) : Prop :=
  ∀ a : Fin 32, s.actions[a].defined = false → s.actions[a] = ActionRecord.undefined

/-- R108, R123: a granted data cell stays at the head of its queue until its transmission ends. -/
def dataCellHeld (s : State) : Prop :=
  (∀ c, s.headTx = .sending .urgent c → s.urgent.head? = some c) ∧
    ∀ c, s.headTx = .sending .normal c → s.normal.head? = some c

/-- R126, R160: the transmitter sends a reply exactly while the oldest reply is marked as in transmission; no other
reply is. -/
def replyHeld (s : State) : Prop :=
  (∀ r ∈ s.replies.drop 1, r.inTransmission = false) ∧
    ((∃ c, s.headTx = .sending .reply c) ↔ ∃ r ∈ s.replies.head?, r.inTransmission = true)

/-- R135, R143: a SENT record has 1 to 4 sends, and at most 3 of them when its resend is due; it is in
transmission only while the transmitter sends the report of its sequence. -/
def sentLegal (s : State) (r : SentReport) : Prop :=
  1 ≤ r.sends ∧ r.sends ≤ 4 ∧ (r.cond = .due → r.sends ≤ 3) ∧
    (r.cond = .inTransmission → ∃ c, s.headTx = .sending (.report r.seq) c)

/-- R135, R137, R139: every record of the report queue is legal, and records are SENT only by a part that has an
address. -/
def reportsLegal (s : State) : Prop :=
  (∀ w ∈ s.waiting, 1 ≤ w.occurrences ∧ w.occurrences ≤ 255) ∧
    (∀ r ∈ s.sent, sentLegal s r ∧ 1 ≤ r.occurrences ∧ r.occurrences ≤ 255) ∧
    (s.sent ≠ [] → s.nodeAddress ≠ none) ∧ s.lostSinceSent ≤ 255

/-- Every invariant of this file at once, as it holds right after reset. -/
def allInvariants (s : State) : Prop :=
  (poolBalanced s ∧ upstreamBalanced s) ∧ (refsExact s ∧ undefinedIsZero s) ∧
    (emptyIsCleared s ∧ retiringIsHeld s) ∧ metersBounded s ∧ ringOrdered s ∧
    (reportQueueBounded s ∧ reportsLegal s) ∧ (repliesBounded s ∧ replyHeld s ∧ dataCellHeld s) ∧
    (grantsMade s ∧ tailStarted s ∧ downstreamBounded s) ∧
    (addressLegal s ∧ settingsInRange s ∧ starvationBounded s) ∧ portsLegal s ∧ sendsCellsWhileUp s

/-! ### The terms of statements about requests -/

/-- The command that brings a request of a kind. -/
def requestOf (k : Kind) (f : Form) (tag : Byte) (args : List Byte) : Instr :=
  match k with
  | .ping => .ping f tag args
  | .identRead => .identRead f tag args
  | .addressAssign => .addressAssign f tag args
  | .settingWrite => .settingWrite f tag args
  | .settingRead => .settingRead f tag args
  | .entryWrite => .entryWrite f tag args
  | .entryRead => .entryRead f tag args
  | .batchActivate => .batchActivate f tag args
  | .entryRetire => .entryRetire f tag args
  | .batchRetire => .batchRetire f tag args
  | .batchDiscard => .batchDiscard f tag args
  | .actionWrite => .actionWrite f tag args
  | .actionRead => .actionRead f tag args
  | .actionClear => .actionClear f tag args
  | .meterWrite => .meterWrite f tag args
  | .meterRead => .meterRead f tag args
  | .binruleWrite => .binruleWrite f tag args
  | .binruleRead => .binruleRead f tag args
  | .binsRead => .binsRead f tag args
  | .binsReadClear => .binsReadClear f tag args
  | .binsClear => .binsClear f tag args
  | .captureFetch => .captureFetch f tag args
  | .captureRelease => .captureRelease f tag args
  | .reportAck => .reportAck f tag args
  | .statsRead => .statsRead f tag args
  | .statsClear => .statsClear f tag args
  | .deviceReset => .deviceReset f tag args

/-- R154: an addressed request of this kind code and tag is executed: RESETN does not hold the part, no reset is
pending, the reply queue has room and the reply memory holds no record of the same tag and kind. -/
structure Accepts (code tag : Byte) (s : State) : Prop where
  running : s.resetHeld = false
  noReset : s.resetPending = false
  room : s.replies.length < 4
  fresh : ∀ m ∈ s.memory, ¬(m.tag = tag ∧ m.kind = code)

/-- R163: a broadcast request is looked at: RESETN does not hold the part and no reset is pending. -/
structure Hears (s : State) : Prop where
  running : s.resetHeld = false
  noReset : s.resetPending = false

/-- R156, R157, R159: the state `u` that the owning rule leaves, with the reply queued and stored and
requests_taken raised. -/
def answered (code tag : Byte) (st : Status) (results : List Byte) (u : State) : State :=
  { u with
    replies := u.replies ++ [⟨code, tag, st, results, false, false⟩]
    memory := storeMemory ⟨tag, code, st, results⟩ u.memory
    stats := { u.stats with requestsTaken := u.stats.requestsTaken + 1 } }

/-- R163: the state `u` that the owning rule leaves with status OK, with requests_taken raised. -/
def heard (u : State) : State :=
  { u with stats := { u.stats with requestsTaken := u.stats.requestsTaken + 1 } }

/-- R163: a broadcast executed with a status other than OK leaves only its counts. -/
def heardBadly (s : State) : State :=
  { s with
    stats := { s.stats with
      requestsTaken := s.stats.requestsTaken + 1
      broadcastFailed := s.stats.broadcastFailed + 1 } }

/-- R18: what retirement leaves of an entry. -/
def retiredEntry (i : Fin 64) (s : State) : Entry :=
  match s.entries[i].state with
  | .live => if s.held = some i then { s.entries[i] with state := .retiring } else Entry.cleared
  | .pending => Entry.cleared
  | .empty => s.entries[i]
  | .retiring => s.entries[i]

/-- R33: the entries naming record `a` that have entered EMPTY between two states. -/
def emptied (a : Fin 32) (s u : State) : Nat :=
  (List.finRange 64).countP fun i =>
    s.entries[i].state != .empty && s.entries[i].action == a && u.entries[i].state == .empty

/-- R33: from `s` to `u` only the match table has changed, and every record has dropped one reference for each
entry naming it that has entered EMPTY. -/
structure EntriesLeft (s u : State) : Prop where
  refs : ∀ a : Fin 32, u.actions[a] = { s.actions[a] with refs := s.actions[a].refs - emptied a s u }
  rest : u = { s with entries := u.entries, actions := u.actions }

/-- R33, R34: from `s` to `u` one reference has moved from the record `old` names, if any, to the record `new`
names, if any; nothing moves when they are the same. -/
def refMoved (old new : Option (Fin 32)) (s u : State) : Prop :=
  ∀ a : Fin 32, u.actions[a] = { s.actions[a] with
    refs := s.actions[a].refs - (if old = some a ∧ new ≠ some a then 1 else 0) +
      (if new = some a ∧ old ≠ some a then 1 else 0) }

/-! ### The terms of statements about events -/

/-- The command that brings a symbol to a port. -/
def symbolOf (p : Side) (y : Symbol) : Instr :=
  match p, y with
  | p, .data b => .dataByte p b
  | p, .alignment => .alignmentWord p
  | p, .violation => .codeViolation p
  | .tail, .startDelimiter => .startOfCell
  | .tail, .endDelimiter => .endOfCell
  | .head, .startDelimiter => .headStartOfCell
  | .head, .endDelimiter => .headEndOfCell

/-- R188: the framing position a symbol of an UP port leads to, if the symbol is a framing violation there. -/
def violationTo (x : Port) (y : Symbol) : Option FramingPosition :=
  match x.position, y with
  | .between, .data _ => some .hunting
  | .between, .endDelimiter => some .hunting
  | .between, .violation => some .hunting
  | .inCell, .data _ => if 56 ≤ x.cellBytes then some .hunting else none
  | .inCell, .startDelimiter => some .inCell
  | .inCell, .alignment => some .between
  | _, _ => none

/-- R102: the payload check of a cell passes: `symbols` symbols arrived, `bad` says that one was a code violation
(R190), and `buf` holds the bytes of a cell of this length. -/
structure PayloadGood (symbols : Nat) (bad : Bool) (length : Nat) (buf : List Byte) : Prop where
  clean : bad = false
  bytes : symbols = 6 + length + (if length = 0 then 0 else 2)
  check : 0 < length → argNat buf (6 + length) * 256 + argNat buf (7 + length) =
    (payloadCheck ((buf.drop 6).take length)).toNat

/-- R48, R49: a meter after the charge of a cell of this size. -/
def chargedMeter (size : Nat) (x : Meter) : Meter :=
  if size ≤ x.credit then
    { x with credit := x.credit - size, conform := satAdd x.conform 1, inExcess := false }
  else { x with exceed := satAdd x.exceed 1, inExcess := true }

/-- R48 to R50: the meter outcome of the charge. -/
def chargeOutcome (size : Nat) (x : Meter) : MeterOutcome :=
  if size ≤ x.credit then .conform else .exceed x.policy

/-- R11, R49: the occurrences of a key-complete, in the order of R14. -/
def keyOccurrences (v : Verdict) (size : Nat) (s : State) : State :=
  let s1 := match v.entry with
    | some i =>
      if s.entries[i].hits = 0 ∧ s.entries[i].firstHit = true then occur .entryFirstHit i.val s else s
    | none => s
  match v.act.meter with
  | some m =>
    if s.meters[m].credit < size ∧ s.meters[m].inExcess = false then occur .meterExceeded m.val s1 else s1
  | none => s1

/-- R14: from `s`, key-complete of a cell with this key leaves `w` and the verdict `v`. -/
structure Classified (key : Key) (s w : State) (v : Verdict) : Prop where
  /-- R10. -/
  entry : v.entry = findHit key s
  /-- R13, R39. -/
  position : v.actionPos = match v.entry with
    | some i => some s.entries[i].action
    | none => s.settings.missAction
  /-- R13, R39. -/
  action : v.act = match v.actionPos with
    | some a => s.actions[a].act
    | none => ⟨.forward, .normal, none, none, none⟩
  /-- R40. -/
  rule : v.rule = match v.act.rule with
    | some n => some (n, s.rules[n].cfg)
    | none => none
  /-- R47, R50. -/
  meter : v.meter = match v.act.meter with
    | some m => chargeOutcome (6 + key.length + (if 0 < key.length then 2 else 0)) s.meters[m]
    | none => .absent
  /-- R50. -/
  cls : v.cls = if v.meter = .exceed .demote then .normal else v.act.cls
  /-- R11. -/
  hits : ∀ i : Fin 64, w.entries[i] =
    if v.entry = some i then { s.entries[i] with hits := satAdd s.entries[i].hits 1 } else s.entries[i]
  /-- R48, R49. -/
  meters : ∀ m : Fin 16, w.meters[m] =
    if v.act.meter = some m then
      chargedMeter (6 + key.length + (if 0 < key.length then 2 else 0)) s.meters[m]
    else s.meters[m]
  /-- R11, R49. -/
  reports : w.waiting = (keyOccurrences v (6 + key.length + (if 0 < key.length then 2 else 0)) s).waiting ∧
    w.lostSinceSent =
      (keyOccurrences v (6 + key.length + (if 0 < key.length then 2 else 0)) s).lostSinceSent ∧
    w.stats = (keyOccurrences v (6 + key.length + (if 0 < key.length then 2 else 0)) s).stats
  /-- Nothing else changes. -/
  rest : w = { s with
    entries := w.entries, meters := w.meters, waiting := w.waiting, lostSinceSent := w.lostSinceSent,
    stats := w.stats }

/-- R12: from `s` to `u` the held entry `held` has been released: a RETIRING one has become EMPTY. -/
structure Released (held : Option (Fin 64)) (s u : State) : Prop extends EntriesLeft s u where
  entries : ∀ i : Fin 64, u.entries[i] =
    if held = some i ∧ s.entries[i].state = .retiring then Entry.cleared else s.entries[i]

/-- R104: the outcome of a cell whose payload check passed. -/
def outcomeOf (v : Verdict) (s : State) : CellOutcome :=
  if v.act.disposition = .discard ∨ v.act.disposition = .captureDiscard then .actionDiscarded
  else if v.meter = .exceed .drop then .meterDropped
  else if v.cls = .urgent then .forwardedUrgent
  else if s.normal.length < s.settings.normalLimit then .forwardedNormal
  else .queueDropped

/-- R68, R83, R84, R85, R111: the occurrences of the end-of-cell of a good cell with this outcome, in the order of R103;
`c` is what bin counting, the first step, has left. -/
def endOccurrences (v : Verdict) (o : CellOutcome) (c : State) : State :=
  let c1 := if o = .queueDropped then occur .poolExhausted 1 c else c
  if v.act.disposition = .captureForward ∨ v.act.disposition = .captureDiscard then
    if c.captures.length < 8 then occur .captureReady 0 c1 else occur .captureLost 0 c1
  else c1

/-- R64: the gate stops the cell: its byte is absent, or the bit does not stand as the gate asks. -/
def gateStops (c : BinConfig) (h : Header) (buf : List Byte) : Prop :=
  match c.gate with
  | .none => False
  | .bitSet => h.length ≤ c.gateOffset ∨ (argByte buf (6 + c.gateOffset)).getLsbD c.gateBit = false
  | .bitClear => h.length ≤ c.gateOffset ∨ (argByte buf (6 + c.gateOffset)).getLsbD c.gateBit = true

/-- R65: the source value of a cell, where it is present. -/
def sourceGives (c : BinConfig) (h : Header) (buf : List Byte) (v : Nat) : Prop :=
  match c.source with
  | .payloadByte => c.sourceOffset < h.length ∧ v = argNat buf (6 + c.sourceOffset)
  | .payloadWord => c.sourceOffset + 1 < h.length ∧
      v = argNat buf (6 + c.sourceOffset) * 256 + argNat buf (7 + c.sourceOffset)
  | .channel => v = h.channel.toNat
  | .src => v = h.src.toNat
  | .length => v = h.length

/-- The table after R177: the part right after a device reset. -/
def afterDeviceReset (s : State) : State :=
  { s with
    entries := Vector.replicate 64 Entry.cleared
    actions := Vector.replicate 32 ActionRecord.undefined
    meters := Vector.replicate 16 ⟨0, 64, 64, .pass, false, 0, 0⟩
    refillLeft := 100
    bins := Vector.replicate 1024 0
    rules := Vector.replicate 8 ⟨⟨false, 0, 0, .payloadByte, 0, 0, .wrap, .none, 0, 0, .one⟩, 0, 0, 0⟩
    captures := []
    nextCapture := 0
    freeBuffers := 24
    tailRx := match s.tailRx with
      | .idle => .idle
      | .receiving _ => .discarding
      | .discarding => .discarding
    urgent := []
    normal := []
    headTx := match s.headTx with
      | .idle => .idle
      | .sending _ cell => .sending .detached cell
    starvation := 0
    waiting := [⟨.resetDone, 1, 1, s.lineTime⟩]
    sent := []
    lostSinceSent := 0
    replies := []
    memory := []
    resetPending := false
    stats := Stats.zero
    settings := ⟨none, 0, 1, 20, 100, 20, 0xFF, 16⟩ }

/-! ### The terms of statements about framing violations and realignments -/

/-- R98, R100, R189, R193: from `s` to `u` the cell in reception at a port has ended as a failed cell: counted once, its
buffer freed, classified first if it had passed header-complete but not key-complete. -/
def CellFailed (p : Side) (s u : State) : Prop :=
  match p with
  | .head =>
    match s.headRx with
    | .idle => u = s
    | .discarding => u = { s with headRx := .idle }
    | .receiving _ => u = { s with
        headRx := .idle
        stats := { s.stats with badDown := s.stats.badDown + 1 } }
  | .tail =>
    match s.tailRx with
    | .idle => u = s
    | .discarding => u = { s with tailRx := .idle }
    | .receiving ⟨buf, hdr⟩ =>
      (hdr = none → u = { s with
        freeBuffers := s.freeBuffers + 1
        tailRx := .idle
        stats := { s.stats with headerBad := s.stats.headerBad + 1 } }) ∧
      ∀ l : Latched, hdr = some l →
        (∀ v : Verdict, l.verdict = some v → ∃ w : State, Released v.entry s w ∧ u = { w with
          freeBuffers := s.freeBuffers + 1
          tailRx := .idle
          stats := { s.stats with payloadBad := s.stats.payloadBad + 1 } }) ∧
        (l.verdict = none → ∃ (w : State) (v : Verdict), Classified (keyOf l buf) s w v ∧ u = { w with
          freeBuffers := s.freeBuffers + 1
          tailRx := .idle
          stats := { w.stats with payloadBad := w.stats.payloadBad + 1 } })

/-- R97, R188, R193: the part after start-of-cell at a port whose receive side is IDLE. -/
def cellBegun (p : Side) (s : State) : State :=
  match p with
  | .head => { s with
      headPort := { s.headPort with position := .inCell, cellBytes := 0, cellBad := false }
      headRx := .receiving [] }
  | .tail =>
    let s1 := { s with
      tailPort := { s.tailPort with position := .inCell, cellBytes := 0, cellBad := false }
      stats := { s.stats with started := s.stats.started + 1 } }
    if 0 < s.freeBuffers then
      { s1 with freeBuffers := s.freeBuffers - 1, tailRx := .receiving ⟨[], none⟩ }
    else
      occur .poolExhausted 0 { s1 with
        tailRx := .discarding
        stats := { s1.stats with poolDropped := s1.stats.poolDropped + 1 } }

/-- R107, R193: from `s` to `u` the cell in reception at a port has been aborted. -/
def CellAborted (p : Side) (s u : State) : Prop :=
  match p with
  | .head =>
    match s.headRx with
    | .idle => u = s
    | .discarding => u = { s with headRx := .idle }
    | .receiving _ => u = { s with
        headRx := .idle
        stats := { s.stats with badDown := s.stats.badDown + 1 } }
  | .tail =>
    match s.tailRx with
    | .idle => u = s
    | .discarding => u = { s with tailRx := .idle }
    | .receiving _ => ∃ w : State, Released s.held s w ∧ u = { w with
        freeBuffers := s.freeBuffers + 1
        tailRx := .idle
        stats := { s.stats with rxAborted := s.stats.rxAborted + 1 } }

/-- R110, R122, R125, R126, R142, R175: from `s`, where the Head transmitter is IDLE again, to `u` the source of a cell
has been told of its transmit-abort. -/
def AbortTold (src : TxSource) (s u : State) : Prop :=
  match src with
  | .urgent => u = if s.urgent = [] then s else { s with
      urgent := s.urgent.drop 1
      freeBuffers := s.freeBuffers + 1
      stats := { s.stats with txAborted := s.stats.txAborted + 1 } }
  | .normal => u = if s.normal = [] then s else { s with
      normal := s.normal.drop 1
      freeBuffers := s.freeBuffers + 1
      starvation := if s.normal.length = 1 then 0 else s.starvation
      stats := { s.stats with txAborted := s.stats.txAborted + 1 } }
  | .reply => ∀ (r : Reply) (rest : List Reply), s.replies = r :: rest → r.inTransmission = true →
      (∀ x ∈ rest, x.inTransmission = false) →
      u = if r.resetMark then afterDeviceReset { s with replies := rest } else { s with replies := rest }
  | .report q => u = { s with
      sent := s.sent.map fun r => if r.seq = q then
        { r with cond := .timing (s.lineTime + BitVec.ofNat 32 (s.settings.reportTimeout * 1000)) }
        else r }
  | .detached => u = s

/-- R125, R183, R196: from `s` to `u` the cell in transmission on a port, if there is one, has been cut short: some of
its symbols, not all, have left (log 19), and its source has been told. -/
def TransmissionCut (p : Side) (s u : State) : Prop :=
  match p with
  | .head =>
    match s.headTx with
    | .idle => u = s
    | .sending src cell => ∃ n : Nat, n < cell.length + 2 ∧ AbortTold src { s with
        headTx := .idle
        headCut := (Symbol.startDelimiter :: cell.map Symbol.data ++ [Symbol.endDelimiter]).take n
        freeIndex := s.freeIndex + 1 } u
  | .tail =>
    match s.tailTx with
    | .idle => u = s
    | .sending => ∀ cell rest, s.downQueue = cell :: rest → ∃ n : Nat, n < cell.length + 2 ∧ u = { s with
        tailTx := .idle
        downQueue := rest
        tailCut := (Symbol.startDelimiter :: cell.map Symbol.data ++ [Symbol.endDelimiter]).take n
        freeIndex := s.freeIndex + 1
        stats := { s.stats with txAbortedDown := s.stats.txAbortedDown + 1 } }

/-- R186: from `s` to `u` a port has left UP for the link state `after`: its pin is released, the cell in reception is
aborted, the cell in transmission is cut short, and LINK_CHANGED is raised, in this order (log 8). The counts and the
position that the new link state does not use stand (log 10). -/
def Realigned (p : Side) (after : LinkState) (s u : State) : Prop :=
  ∃ s1 s2 s3 : State,
    s1 = s.setPort p { s.port p with
      link := after
      run := if after = .aligning then 0 else (s.port p).run
      upPin := false } ∧
    ((s.port p).position = .inCell → CellAborted p s1 s2) ∧ ((s.port p).position ≠ .inCell → s2 = s1) ∧
    TransmissionCut p s2 s3 ∧ u = occur .linkChanged (if p = .head then 0 else 1) s3

/-- The commands, run one after another, lead from `s` to `t`. -/
def Runs : List Instr → State → State → Prop
  | [], s, t => t = s
  | c :: cs, s, t => ∃ u : State, exec c s = .next u ∧ Runs cs u t

end Sys2Proof.Machine
end

