-- ==== Sys2Proof/Certificates/Slice0/Obligations.lean ====
section
/-! DEFINITION. The statements for the provers. The terms they are made of stand in Sys2Proof/Safety.lean. -/

open Sys2Proof Sys2Proof.Machine

/-! ### Commands and steps -/

/-- A step runs exactly the command at the front of the queue, on the state with the queue's rest; with an empty
queue the part idles (log 13, the model's choice). -/
def Obligations.StepRunsTheFrontCommand : Prop :=
  (∀ (c : Instr) (q : List Instr) (s : State),
    step { s with pending := c :: q } = exec c { s with pending := q }) ∧
  ∀ s : State, s.pending = [] → step s = .next s

/-- Every command answers a next state, and none touches the queue of waiting commands. -/
def Obligations.EveryCommandAnswersAndLeavesTheQueue : Prop :=
  ∀ (c : Instr) (s : State), ∃ t : State, exec c s = .next t ∧ t.pending = s.pending

/-- R210: while RESETN holds the part, no event, request or timer is acted on. That commands of the link leave
the state standing until the release is the model's choice (log 12). -/
def Obligations.NothingActsWhileResetIsHeld : Prop :=
  ∀ (c : Instr) (s : State), s.resetHeld = true → c ≠ .powerOnReset → (∀ ns, c ≠ .resetnHeldLow ns) →
    exec c s = .next s

/-- The close of an event is a TRANSMIT_START and then a TAIL_TRANSMIT_START (log 3): R120 and R196 place both
starts within the event that brings their conditions about. -/
def Obligations.CloseOfAnEventIsTheTwoStarts : Prop :=
  ∀ s : State, s.resetHeld = false →
    ∃ u : State, exec .transmitStart s = .next u ∧ exec .tailTransmitStart u = .next (settle s)

/-! ### Resets -/

/-- POWER_ON_RESET leaves every block at its power-on reset values. The commands that wait and the index of the
free values of logs 11 and 19 are the model's own and stay; the symbols left by a transmission cut short are the
model's record (log 19) and go. -/
def Obligations.PowerOnResetGivesEveryResetValue : Prop :=
  ∀ s : State, ∃ t : State, exec .powerOnReset s = .next t ∧
    (∀ i : Fin 64, t.entries[i] = Entry.cleared) ∧
    (∀ a : Fin 32, t.actions[a] = ⟨false, ⟨.forward, .urgent, none, none, none⟩, 0⟩) ∧
    (∀ m : Fin 16, t.meters[m] = ⟨0, 64, 64, .pass, false, 0, 0⟩) ∧ t.refillLeft = 100 ∧
    (∀ b : Fin 1024, t.bins[b] = 0) ∧
    (∀ n : Fin 8, t.rules[n] =
      ⟨⟨false, 0, 0, .payloadByte, 0, 0, .wrap, .none, 0, 0, .one⟩, 0, 0, 0⟩) ∧
    t.captures = [] ∧ t.nextCapture = 0 ∧
    t.freeBuffers = 24 ∧ t.tailRx = .idle ∧ t.urgent = [] ∧ t.normal = [] ∧
    t.headTx = .idle ∧ t.starvation = 0 ∧
    t.waiting = [⟨.resetDone, 0, 1, 0⟩] ∧ t.sent = [] ∧ t.nextSequence = 0 ∧ t.lostSinceSent = 0 ∧
    t.nodeAddress = none ∧ t.replies = [] ∧ t.memory = [] ∧ t.resetPending = false ∧
    (∀ p : Side, (t.port p).link = .down ∧ (t.port p).run = 0 ∧ (t.port p).violations = 0 ∧
      (t.port p).position = .between ∧ (t.port p).upPin = false ∧ (t.port p).txDriven = true) ∧
    t.headRx = .idle ∧ t.downQueue = [] ∧ t.tailTx = .idle ∧ t.headCut = [] ∧ t.tailCut = [] ∧
    t.stats = Stats.zero ∧ t.settings = ⟨none, 0, 1, 20, 100, 20, 0xFF, 16⟩ ∧ t.lineTime = 0 ∧
    t.resetHeld = false ∧ t.pending = s.pending ∧ t.freeIndex = s.freeIndex

/-- R210: RESETN low for under 100 ns has no effect; from 1 µs on it holds the part in reset, with no symbols
sent, the UP pins released and the line time at 0. That every other field stands while the part is held is the
model's choice (log 12). Between the two figures R210 leaves it open: the model does one or the other by a free value,
and raises the index of the free values (log 11, the model's choice). -/
def Obligations.ResetnLowHoldsThePartInReset : Prop :=
  ∀ (ns : Nat) (s held : State),
    held = { s with
      resetHeld := true
      lineTime := 0
      headPort := { s.headPort with upPin := false, txDriven := false }
      tailPort := { s.tailPort with upPin := false, txDriven := false } } →
    (ns < 100 → exec (.resetnHeldLow ns) s = .next s) ∧
    (1000 ≤ ns → exec (.resetnHeldLow ns) s = .next held) ∧
    (100 ≤ ns → ns < 1000 →
      exec (.resetnHeldLow ns) s = .next { s with freeIndex := s.freeIndex + 1 } ∨
      exec (.resetnHeldLow ns) s = .next { held with freeIndex := s.freeIndex + 1 })

/-- R173: an addressed DEVICE_RESET of a part with an address queues and stores its reply, with the reset
mark, and makes reset pending yes; nothing is reset yet. R176, R177: one taken while the address is
UNASSIGNED, and a broadcast one, take effect at the taking, with the values of the table after R177, without a
reply and without a count. That the command is the taking, and the decisions at its close, are the model's
(logs 2, 3, 23). -/
def Obligations.DeviceResetWaitsOrTakesEffect : Prop :=
  (∀ (tag : Byte) (args : List Byte) (s : State), Accepts 27 tag s → s.nodeAddress ≠ none →
    exec (.deviceReset .addressed tag args) s = .next (settle { s with
      resetPending := true
      replies := s.replies ++ [⟨27, tag, .ok, [], true, false⟩]
      memory := storeMemory ⟨tag, 27, .ok, []⟩ s.memory
      stats := { s.stats with requestsTaken := s.stats.requestsTaken + 1 } })) ∧
  ∀ (tag : Byte) (args : List Byte) (s : State),
    (Accepts 27 tag s → s.nodeAddress = none →
      exec (.deviceReset .addressed tag args) s = .next (settle (afterDeviceReset s))) ∧
    (Hears s → exec (.deviceReset .broadcast tag args) s = .next (settle (afterDeviceReset s)))

/-! ### Management: the common rules -/

/-- R154, R158, R163: with a reset pending, or 4 replies in the queue, an addressed request of any kind is
dropped; one whose tag and kind are in the reply memory is answered by a copy of the stored reply. A broadcast
is dropped while a reset is pending, and refused when its kind is not accepted as broadcast. That the command
is the taking, and the decisions at its close, are the model's (logs 2, 3, 23). -/
def Obligations.RequestsAreDroppedReplayedOrRefused : Prop :=
  (∀ (k : Kind) (tag : Byte) (args : List Byte) (s : State), s.resetHeld = false →
    (s.resetPending = true ∨ 4 ≤ s.replies.length →
      exec (requestOf k .addressed tag args) s = .next (settle { s with
        stats := { s.stats with mgmtDropped := s.stats.mgmtDropped + 1 } })) ∧
    (s.resetPending = false → s.replies.length < 4 →
      ∀ (older newer : List MemoryRecord) (m : MemoryRecord), s.memory = older ++ m :: newer →
        (∀ x ∈ older, ¬(x.tag = tag ∧ x.kind = k.code)) → m.tag = tag → m.kind = k.code →
        exec (requestOf k .addressed tag args) s = .next (settle { s with
          replies := s.replies ++ [⟨m.kind, m.tag, m.status, m.results, false, false⟩]
          stats := { s.stats with
            requestsTaken := s.stats.requestsTaken + 1
            replays := s.stats.replays + 1 } }))) ∧
  ∀ (k : Kind) (tag : Byte) (args : List Byte) (s : State), s.resetHeld = false →
    (s.resetPending = true →
      exec (requestOf k .broadcast tag args) s = .next (settle { s with
        stats := { s.stats with mgmtDropped := s.stats.mgmtDropped + 1 } })) ∧
    (s.resetPending = false →
      k ∉ [Kind.batchActivate, .batchRetire, .batchDiscard, .statsClear, .deviceReset, .ping] →
      exec (requestOf k .broadcast tag args) s = .next (settle { s with
        stats := { s.stats with broadcastRefused := s.stats.broadcastRefused + 1 } }))

/-- R155, R156, R163, R215: the 27 kinds have the codes and least payload lengths of R215; a payload shorter
than its kind needs is answered BAD_LENGTH with the least length, and a kind code that names no kind
BAD_REQUEST without results; no block is reached. That the command is the taking, and the decisions at its
close, are the model's (logs 2, 3, 23). -/
def Obligations.BadRequestsReachNoBlock : Prop :=
  (allKinds.map Kind.codeAndLeast =
      [(1, 2), (2, 2), (3, 3), (4, 5), (5, 3), (6, 21), (7, 3), (8, 4), (9, 3), (10, 3), (11, 3), (12, 9),
        (13, 3), (14, 3), (15, 9), (16, 3), (17, 16), (18, 3), (19, 6), (20, 6), (21, 6), (22, 3), (23, 4),
        (24, 3), (25, 3), (26, 2), (27, 2)] ∧
    (∀ k : Kind, kindOf k.code = some k) ∧ kindOf 0 = none ∧ ∀ c : Byte, 28 ≤ c.toNat → kindOf c = none) ∧
  (∀ (k : Kind) (tag : Byte) (args : List Byte) (s : State), args.length + 2 < k.least →
    (Accepts k.code tag s →
      exec (requestOf k .addressed tag args) s =
        .next (settle (answered k.code tag .badLength [byteOf k.least] s))) ∧
    (Hears s → k.broadcast = true →
      exec (requestOf k .broadcast tag args) s = .next (settle (heardBadly s)))) ∧
  ∀ (code tag : Byte) (args : List Byte) (s : State), kindOf code = none →
    (Accepts code tag s →
      takePayload .addressed (code :: tag :: args) s = answered code tag .badRequest [] s) ∧
    (Hears s → takePayload .broadcast (code :: tag :: args) s =
      { s with stats := { s.stats with broadcastRefused := s.stats.broadcastRefused + 1 } })

/-- R157: a new memory record replaces the one of its tag, or else the oldest of 4, and becomes the newest; the
memory stays within 4 records with distinct tags. -/
def Obligations.ReplyMemoryKeepsTheLastFourTags : Prop :=
  ∀ (m : MemoryRecord) (l : List MemoryRecord),
    ((∃ x ∈ l, x.tag = m.tag) → storeMemory m l = l.filter (fun x => x.tag ≠ m.tag) ++ [m]) ∧
    ((∀ x ∈ l, x.tag ≠ m.tag) → l.length < 4 → storeMemory m l = l ++ [m]) ∧
    ((∀ x ∈ l, x.tag ≠ m.tag) → l.length = 4 → storeMemory m l = l.drop 1 ++ [m]) ∧
    (l.length ≤ 4 → (l.map MemoryRecord.tag).Nodup →
      (storeMemory m l).length ≤ 4 ∧ ((storeMemory m l).map MemoryRecord.tag).Nodup)

/-! ### Management: part and settings -/

/-- R165, R166: PING answers with the line time and up to 40 echo bytes, IDENT_READ with the identity and the
capacities; a broadcast PING is counted alone. R168: ADDRESS_ASSIGN sets an address from 0x01 to 0xEF and
answers with the address before, 0 for UNASSIGNED, and the new one; any other value is refused with BAD_VALUE.
That the command is the taking, and the decisions at its close, are the model's (logs 2, 3, 23). -/
def Obligations.PingIdentReadAndAddressAssign : Prop :=
  (∀ (tag : Byte) (args : List Byte) (s : State),
    (Accepts 1 tag s → exec (.ping .addressed tag args) s =
      .next (settle (answered 1 tag .ok (bytes32 s.lineTime ++ args.take 40) s))) ∧
    (Hears s → exec (.ping .broadcast tag args) s = .next (settle (heard s))) ∧
    (Accepts 2 tag s → exec (.identRead .addressed tag args) s =
      .next (settle (answered 2 tag .ok [0x02, 0x40, 1, 64, 32, 16, 8, 0x04, 0x00, 8, 24, 16] s)))) ∧
  ∀ (tag a : Byte) (more : List Byte) (s : State), Accepts 3 tag s →
    (1 ≤ a.toNat → a.toNat ≤ 0xEF →
      exec (.addressAssign .addressed tag (a :: more)) s =
        .next (settle (answered 3 tag .ok [s.nodeAddress.getD 0, a] { s with nodeAddress := some a }))) ∧
    (a.toNat < 1 ∨ 0xEF < a.toNat →
      exec (.addressAssign .addressed tag (a :: more)) s = .next (settle (answered 3 tag .badValue [] s)))

/-- R170, R171: SETTING_WRITE of items 1 to 7 sets the setting to a value in its range and answers with the
value before; refill_interval restarts the refill timer. An item above 7 and a value out of range are refused.
That the command is the taking, and the decisions at its close, are the model's (logs 2, 3, 23). -/
def Obligations.SettingWriteSetsOneSetting : Prop :=
  ∀ (tag item hi lo : Byte) (more : List Byte) (s : State) (v : Nat), Accepts 4 tag s →
    v = hi.toNat * 256 + lo.toNat →
    (item = 1 → v ≤ 47 → exec (.settingWrite .addressed tag (item :: hi :: lo :: more)) s =
      .next (settle (answered 4 tag .ok (bytes16 s.settings.probe0Offset)
        { s with settings := { s.settings with probe0Offset := v } }))) ∧
    (item = 2 → v ≤ 47 → exec (.settingWrite .addressed tag (item :: hi :: lo :: more)) s =
      .next (settle (answered 4 tag .ok (bytes16 s.settings.probe1Offset)
        { s with settings := { s.settings with probe1Offset := v } }))) ∧
    (item = 3 → 1 ≤ v → v ≤ 23 → exec (.settingWrite .addressed tag (item :: hi :: lo :: more)) s =
      .next (settle (answered 4 tag .ok (bytes16 s.settings.normalLimit)
        { s with settings := { s.settings with normalLimit := v } }))) ∧
    (item = 4 → v ∈ [50, 100, 200, 500] → exec (.settingWrite .addressed tag (item :: hi :: lo :: more)) s =
      .next (settle (answered 4 tag .ok (bytes16 s.settings.refillInterval)
        { s with settings := { s.settings with refillInterval := v }, refillLeft := v }))) ∧
    (item = 5 → 1 ≤ v → v ≤ 255 → exec (.settingWrite .addressed tag (item :: hi :: lo :: more)) s =
      .next (settle (answered 4 tag .ok (bytes16 s.settings.reportTimeout)
        { s with settings := { s.settings with reportTimeout := v } }))) ∧
    (item = 6 → hi = 0 → exec (.settingWrite .addressed tag (item :: hi :: lo :: more)) s =
      .next (settle (answered 4 tag .ok [0, s.settings.reportEnable]
        { s with settings := { s.settings with reportEnable := lo } }))) ∧
    (item = 7 → 1 ≤ v → v ≤ 255 → exec (.settingWrite .addressed tag (item :: hi :: lo :: more)) s =
      .next (settle (answered 4 tag .ok (bytes16 s.settings.starvationLimit)
        { s with settings := { s.settings with starvationLimit := v } }))) ∧
    (8 ≤ item.toNat → exec (.settingWrite .addressed tag (item :: hi :: lo :: more)) s =
      .next (settle (answered 4 tag .badIndex [] s))) ∧
    ((item = 0 ∧ 31 < v ∧ v ≠ 0x00FF) ∨ ((item = 1 ∨ item = 2) ∧ 47 < v) ∨ (item = 3 ∧ (v < 1 ∨ 23 < v)) ∨
        (item = 4 ∧ v ∉ [50, 100, 200, 500]) ∨ ((item = 5 ∨ item = 7) ∧ (v < 1 ∨ 255 < v)) ∨
        (item = 6 ∧ hi ≠ 0) →
      exec (.settingWrite .addressed tag (item :: hi :: lo :: more)) s =
        .next (settle (answered 4 tag .badValue [] s)))

/-- R34, R170: SETTING_WRITE of miss_action takes NONE or a defined record and moves the reference counts; a
record that is not defined is refused with UNDEFINED_ACTION. That the command is the taking, and the decisions
at its close, are the model's (logs 2, 3, 23). -/
def Obligations.MissActionWriteMovesTheReference : Prop :=
  ∀ (tag hi lo : Byte) (more : List Byte) (s : State) (new : Option (Fin 32)), Accepts 4 tag s →
    hi.toNat * 256 + lo.toNat = (match new with | some a => a.val | none => 0x00FF) →
    ((∀ a : Fin 32, new = some a → s.actions[a].defined = true) →
      ∃ u : State, exec (.settingWrite .addressed tag (0 :: hi :: lo :: more)) s =
          .next (settle (answered 4 tag .ok
            [0, match s.settings.missAction with | some a => byteOf a.val | none => 0xFF] u)) ∧
        u = { s with actions := u.actions, settings := { s.settings with missAction := new } } ∧
        refMoved s.settings.missAction new s u) ∧
    (∀ a : Fin 32, new = some a → s.actions[a].defined = false →
      exec (.settingWrite .addressed tag (0 :: hi :: lo :: more)) s =
        .next (settle (answered 4 tag .undefinedAction [] s)))

/-- R17, R56, R71, R172: SETTING_READ, ENTRY_READ, METER_READ and BINRULE_READ answer with every field as it
stands at the taking, or BAD_INDEX; they change nothing but the reply queue, the reply memory and the count of
requests. That the command is the taking, and the decisions at its close, are the model's (logs 2, 3, 23). R211, R215,
R217: the codes and byte orders in which these and all other layouts carry their fields. -/
def Obligations.ReadRequestsAnswerWhatStands : Prop :=
  ([EntryState.empty, .pending, .live, .retiring].map EntryState.code = [0, 1, 2, 3] ∧
    [Presence.any, .bothPresent, .anyAbsent].map Presence.code = [0, 1, 2] ∧
    [Disposition.forward, .discard, .captureForward, .captureDiscard].map Disposition.code = [0, 1, 2, 3] ∧
    [CellClass.urgent, .normal].map CellClass.code = [0, 1] ∧
    [Policy.drop, .demote, .pass].map Policy.code = [0, 1, 2] ∧
    [Source.payloadByte, .payloadWord, .channel, .src, .length].map Source.code = [0, 1, 2, 3, 4] ∧
    [RangeMode.wrap, .clamp].map RangeMode.code = [0, 1] ∧
    [Gate.none, .bitSet, .bitClear].map Gate.code = [0, 1, 2] ∧
    [Increment.one, .cellSize].map Increment.code = [0, 1] ∧
    [CellOutcome.forwardedUrgent, .forwardedNormal, .actionDiscarded, .meterDropped, .queueDropped].map
      CellOutcome.code = [0, 1, 2, 3, 4] ∧
    [Status.ok, .badRequest, .badLength, .badIndex, .badValue, .entryBusy, .inUse, .undefinedAction, .notFound,
      .noCapture].map Status.code = [0, 1, 2, 3, 4, 5, 6, 7, 8, 9] ∧
    [ReportKind.meterExceeded, .binSaturated, .captureReady, .captureLost, .entryFirstHit, .poolExhausted,
      .linkChanged, .resetDone].map ReportKind.code = [1, 2, 3, 4, 5, 6, 7, 8]) ∧
  ((∀ n : Nat, n < 256 → (byteOf n).toNat = n) ∧
    (∀ n : Nat, n < 65536 → ∃ b1 b0 : Byte, bytes16 n = [b1, b0] ∧ b1.toNat * 256 + b0.toNat = n) ∧
    (∀ w : Word32, ∃ b3 b2 b1 b0 : Byte, bytes32 w = [b3, b2, b1, b0] ∧
      b3.toNat * 16777216 + b2.toNat * 65536 + b1.toNat * 256 + b0.toNat = w.toNat) ∧
    ∀ (before after : List Byte) (b : Byte),
      argByte (before ++ b :: after) before.length = b ∧ argNat (before ++ b :: after) before.length = b.toNat) ∧
  (∀ (tag : Byte) (item : Fin 256) (more : List Byte) (s : State), Accepts 5 tag s →
    (∀ h : item.val < 8, exec (.settingRead .addressed tag (BitVec.ofFin item :: more)) s =
      .next (settle (answered 5 tag .ok (BitVec.ofFin item :: bytes16
        ([match s.settings.missAction with | some a => a.val | none => 0xFF,
          s.settings.probe0Offset, s.settings.probe1Offset, s.settings.normalLimit,
          s.settings.refillInterval, s.settings.reportTimeout, s.settings.reportEnable.toNat,
          s.settings.starvationLimit][item.val]'h)) s))) ∧
    (8 ≤ item.val → exec (.settingRead .addressed tag (BitVec.ofFin item :: more)) s =
      .next (settle (answered 5 tag .badIndex [] s)))) ∧
  (∀ (tag pos : Byte) (more : List Byte) (s : State), Accepts 7 tag s →
    (∀ i : Fin 64, pos.toNat = i.val → ∀ e : Entry, e = s.entries[i] →
      exec (.entryRead .addressed tag (pos :: more)) s = .next (settle (answered 7 tag .ok
        ([pos, e.state.code, byteOf e.batch.val, byteOf e.kindValue.toNat, byteOf e.kindCare.toNat,
          byteOf e.channelValue.toNat, byteOf e.channelCare.toNat, e.destValue, e.destCare, e.srcValue,
          e.srcCare, byteOf e.lengthMin, byteOf e.lengthMax, e.probe0Value, e.probe0Care, e.probe1Value,
          e.probe1Care, e.presence.code, byteOf e.action.val, if e.firstHit then 1 else 0] ++
          bytes32 e.hits) s))) ∧
    (63 < pos.toNat → exec (.entryRead .addressed tag (pos :: more)) s =
      .next (settle (answered 7 tag .badIndex [] s)))) ∧
  ∀ (tag pos : Byte) (more : List Byte) (s : State),
    (Accepts 16 tag s →
      (∀ (m : Fin 16) (x : Meter), pos.toNat = m.val → x = s.meters[m] →
        exec (.meterRead .addressed tag (pos :: more)) s = .next (settle (answered 16 tag .ok
          ([pos] ++ bytes16 x.rate ++ bytes16 x.burst ++ [x.policy.code] ++ bytes16 x.credit ++
            [if x.inExcess then 1 else 0] ++ bytes32 x.conform ++ bytes32 x.exceed) s))) ∧
      (15 < pos.toNat → exec (.meterRead .addressed tag (pos :: more)) s =
        .next (settle (answered 16 tag .badIndex [] s)))) ∧
    (Accepts 18 tag s →
      (∀ (n : Fin 8) (r : BinRule), pos.toNat = n.val → r = s.rules[n] →
        exec (.binruleRead .addressed tag (pos :: more)) s = .next (settle (answered 18 tag .ok
          ([pos, if r.cfg.enabled then 1 else 0] ++ bytes16 r.cfg.base ++
            [byteOf r.cfg.width, r.cfg.source.code, byteOf r.cfg.sourceOffset, byteOf r.cfg.shift,
              r.cfg.mode.code, r.cfg.gate.code, byteOf r.cfg.gateOffset, byteOf r.cfg.gateBit,
              r.cfg.increment.code] ++ bytes32 r.counted ++ bytes32 r.gatedOut ++ bytes32 r.sourceAbsent)
          s))) ∧
      (7 < pos.toNat → exec (.binruleRead .addressed tag (pos :: more)) s =
        .next (settle (answered 18 tag .badIndex [] s))))

/-! ### Management: entries -/

/-- R15: the refusals of ENTRY_WRITE, in their order. R16, R33: one that passes the checks leaves the entry
PENDING with the fields of the request and a hit count of 0, moves the references, and answers with the state
before. That the command is the taking, and the decisions at its close, are the model's (logs 2, 3, 23). -/
def Obligations.EntryWriteIsRefusedInOrderOrMakesAPendingEntry : Prop :=
  (∀ (tag : Byte) (args : List Byte) (s : State), Accepts 6 tag s → 19 ≤ args.length →
    (63 < argNat args 0 ∨ 31 < argNat args 17 →
      exec (.entryWrite .addressed tag args) s = .next (settle (answered 6 tag .badIndex [] s))) ∧
    ∀ (i : Fin 64) (a : Fin 32), argNat args 0 = i.val → argNat args 17 = a.val →
      (7 < argNat args 1 ∨ 15 < argNat args 2 ∨ 15 < argNat args 3 ∨ 63 < argNat args 4 ∨
          63 < argNat args 5 ∨ 2 < argNat args 16 ∨ argNat args 11 < argNat args 10 ∨ 48 < argNat args 11 →
        exec (.entryWrite .addressed tag args) s = .next (settle (answered 6 tag .badValue [] s))) ∧
      (argNat args 1 ≤ 7 → argNat args 2 ≤ 15 → argNat args 3 ≤ 15 → argNat args 4 ≤ 63 →
          argNat args 5 ≤ 63 → argNat args 16 ≤ 2 → argNat args 10 ≤ argNat args 11 → argNat args 11 ≤ 48 →
        (s.entries[i].state = .live ∨ s.entries[i].state = .retiring →
          exec (.entryWrite .addressed tag args) s = .next (settle (answered 6 tag .entryBusy [] s))) ∧
        (s.entries[i].state = .empty ∨ s.entries[i].state = .pending → s.actions[a].defined = false →
          exec (.entryWrite .addressed tag args) s =
            .next (settle (answered 6 tag .undefinedAction [] s))))) ∧
  ∀ (tag : Byte) (args : List Byte) (s : State) (i : Fin 64) (e : Entry), Accepts 6 tag s → 19 ≤ args.length →
    argNat args 0 = i.val → e.state = .pending → e.batch.val = argNat args 1 →
    e.kindValue.toNat = argNat args 2 → e.kindCare.toNat = argNat args 3 →
    e.channelValue.toNat = argNat args 4 → e.channelCare.toNat = argNat args 5 →
    e.destValue = argByte args 6 → e.destCare = argByte args 7 →
    e.srcValue = argByte args 8 → e.srcCare = argByte args 9 →
    e.lengthMin = argNat args 10 → e.lengthMax = argNat args 11 → e.lengthMin ≤ e.lengthMax →
    e.lengthMax ≤ 48 → e.probe0Value = argByte args 12 → e.probe0Care = argByte args 13 →
    e.probe1Value = argByte args 14 → e.probe1Care = argByte args 15 → e.presence.code = argByte args 16 →
    e.action.val = argNat args 17 → (e.firstHit = true ↔ argByte args 18 ≠ 0) → e.hits = 0 →
    s.actions[e.action].defined = true → (s.entries[i].state = .empty ∨ s.entries[i].state = .pending) →
    ∃ u : State, exec (.entryWrite .addressed tag args) s =
        .next (settle (answered 6 tag .ok [s.entries[i].state.code] u)) ∧
      u = { s with entries := s.entries.set i.val e i.isLt, actions := u.actions } ∧
      refMoved (if s.entries[i].state = .empty then none else some s.entries[i].action) (some e.action) s u

/-- R22 to R24: BATCH_ACTIVATE makes the PENDING entries of batch `b` LIVE with a hit count of 0 and retires
the LIVE entries of batch `c`, all read from the table before it; addressed or broadcast alike. That the
command is the taking, and the decisions at its close, are the model's (logs 2, 3, 23). -/
def Obligations.BatchActivateSwitchesTheTable : Prop :=
  ∀ (tag b c : Byte) (more : List Byte) (s : State),
    (b.toNat < 8 → c.toNat < 8 ∨ c = 0xFF →
      ∃ u : State, EntriesLeft s u ∧
        (∀ i : Fin 64, u.entries[i] =
          if s.entries[i].state = .pending ∧ s.entries[i].batch.val = b.toNat then
            { s.entries[i] with state := .live, hits := 0 }
          else if s.entries[i].state = .live ∧ s.entries[i].batch.val = c.toNat then retiredEntry i s
          else s.entries[i]) ∧
        (Accepts 8 tag s → exec (.batchActivate .addressed tag (b :: c :: more)) s =
          .next (settle (answered 8 tag .ok
            [byteOf ((List.finRange 64).countP fun i =>
                s.entries[i].state = .pending ∧ s.entries[i].batch.val = b.toNat),
              byteOf ((List.finRange 64).countP fun i =>
                s.entries[i].state = .live ∧ s.entries[i].batch.val = c.toNat)] u))) ∧
        (Hears s → exec (.batchActivate .broadcast tag (b :: c :: more)) s = .next (settle (heard u)))) ∧
    (8 ≤ b.toNat ∨ (8 ≤ c.toNat ∧ c ≠ 0xFF) →
      (Accepts 8 tag s → exec (.batchActivate .addressed tag (b :: c :: more)) s =
        .next (settle (answered 8 tag .badIndex [] s))) ∧
      (Hears s → exec (.batchActivate .broadcast tag (b :: c :: more)) s =
        .next (settle (heardBadly s))))

/-- R18, R19: ENTRY_RETIRE retires the entry at its position and answers with the states before and after. R26 calls
the reply for the held LIVE entry the same in both orders; that it follows R19 is the model's choice (log 22).
That the command is the taking, and the decisions at its close, are the model's (logs 2, 3, 23). -/
def Obligations.EntryRetireRetiresOneEntry : Prop :=
  ∀ (tag pos : Byte) (more : List Byte) (s : State), Accepts 9 tag s →
    (∀ i : Fin 64, pos.toNat = i.val →
      ∃ u : State, EntriesLeft s u ∧
        (∀ j : Fin 64, u.entries[j] = if j = i then retiredEntry i s else s.entries[j]) ∧
        exec (.entryRetire .addressed tag (pos :: more)) s = .next (settle (answered 9 tag .ok
          [s.entries[i].state.code, (retiredEntry i s).state.code] u))) ∧
    (63 < pos.toNat → exec (.entryRetire .addressed tag (pos :: more)) s =
      .next (settle (answered 9 tag .badIndex [] s)))

/-- R20, R21, R24: BATCH_RETIRE retires every LIVE and PENDING entry of a batch, BATCH_DISCARD empties every
PENDING one; addressed or broadcast alike. That the command is the taking, and the decisions at its close, are
the model's (logs 2, 3, 23). -/
def Obligations.BatchRetireAndDiscardEmptyABatch : Prop :=
  ∀ (tag b : Byte) (more : List Byte) (s : State),
    (b.toNat < 8 →
      (∃ u : State, EntriesLeft s u ∧
        (∀ i : Fin 64, u.entries[i] =
          if s.entries[i].batch.val = b.toNat then retiredEntry i s else s.entries[i]) ∧
        (Accepts 10 tag s → exec (.batchRetire .addressed tag (b :: more)) s =
          .next (settle (answered 10 tag .ok
            [byteOf ((List.finRange 64).countP fun i =>
                s.entries[i].state = .live ∧ s.entries[i].batch.val = b.toNat),
              byteOf ((List.finRange 64).countP fun i =>
                s.entries[i].state = .pending ∧ s.entries[i].batch.val = b.toNat)] u))) ∧
        (Hears s → exec (.batchRetire .broadcast tag (b :: more)) s = .next (settle (heard u)))) ∧
      (∃ u : State, EntriesLeft s u ∧
        (∀ i : Fin 64, u.entries[i] =
          if s.entries[i].state = .pending ∧ s.entries[i].batch.val = b.toNat then Entry.cleared
          else s.entries[i]) ∧
        (Accepts 11 tag s → exec (.batchDiscard .addressed tag (b :: more)) s =
          .next (settle (answered 11 tag .ok
            [byteOf ((List.finRange 64).countP fun i =>
                s.entries[i].state = .pending ∧ s.entries[i].batch.val = b.toNat)] u))) ∧
        (Hears s → exec (.batchDiscard .broadcast tag (b :: more)) s = .next (settle (heard u))))) ∧
    (8 ≤ b.toNat →
      (Accepts 10 tag s → exec (.batchRetire .addressed tag (b :: more)) s =
        .next (settle (answered 10 tag .badIndex [] s))) ∧
      (Accepts 11 tag s → exec (.batchDiscard .addressed tag (b :: more)) s =
        .next (settle (answered 11 tag .badIndex [] s))) ∧
      (Hears s → exec (.batchRetire .broadcast tag (b :: more)) s = .next (settle (heardBadly s)) ∧
        exec (.batchDiscard .broadcast tag (b :: more)) s = .next (settle (heardBadly s))))

/-! ### Management: actions, meters, bin rules and bins -/

/-- R35, R36: ACTION_WRITE replaces the record's fields and defines it, keeps its reference count, and answers
with defined and the count as they were; its refusals fall in the order of R35. That the command is the
taking, and the decisions at its close, are the model's (logs 2, 3, 23). -/
def Obligations.ActionWriteDefinesTheRecord : Prop :=
  ∀ (tag : Byte) (args : List Byte) (s : State), Accepts 12 tag s → 7 ≤ args.length →
    (∀ (a : Fin 32) (x : Action), argNat args 0 = a.val →
      x.disposition.code = argByte args 1 → x.cls.code = argByte args 2 →
      x.rewrite.map BitVec.toNat = (if (argByte args 3).getLsbD 0 then some (argNat args 4) else none) →
      x.meter.map Fin.val = (if (argByte args 3).getLsbD 1 then some (argNat args 5) else none) →
      x.rule.map Fin.val = (if (argByte args 3).getLsbD 2 then some (argNat args 6) else none) →
      exec (.actionWrite .addressed tag args) s = .next (settle (answered 12 tag .ok
        [if s.actions[a].defined then 1 else 0, byteOf s.actions[a].refs]
        { s with actions := s.actions.set a.val ⟨true, x, s.actions[a].refs⟩ a.isLt }))) ∧
    (31 < argNat args 0 ∨ ((argByte args 3).getLsbD 1 = true ∧ 15 < argNat args 5) ∨
        ((argByte args 3).getLsbD 2 = true ∧ 7 < argNat args 6) →
      exec (.actionWrite .addressed tag args) s = .next (settle (answered 12 tag .badIndex [] s))) ∧
    (argNat args 0 ≤ 31 → ((argByte args 3).getLsbD 1 = true → argNat args 5 ≤ 15) →
      ((argByte args 3).getLsbD 2 = true → argNat args 6 ≤ 7) →
      3 < argNat args 1 ∨ 1 < argNat args 2 ∨ ((argByte args 3).getLsbD 0 = true ∧ 63 < argNat args 4) →
      exec (.actionWrite .addressed tag args) s = .next (settle (answered 12 tag .badValue [] s)))

/-- R37, R38: ACTION_READ answers with the record; ACTION_CLEAR undefines a record that nothing names and
refuses one that something names with IN_USE and its count. That the command is the taking, and the decisions
at its close, are the model's (logs 2, 3, 23). -/
def Obligations.ActionReadAndClear : Prop :=
  ∀ (tag pos : Byte) (more : List Byte) (s : State),
    (∀ (a : Fin 32) (r : ActionRecord), pos.toNat = a.val → r = s.actions[a] →
      (Accepts 13 tag s → exec (.actionRead .addressed tag (pos :: more)) s =
        .next (settle (answered 13 tag .ok
          [pos, if r.defined then 1 else 0, r.act.disposition.code, r.act.cls.code,
            (if r.act.rewrite.isSome then 1 else 0) + (if r.act.meter.isSome then 2 else 0) +
              (if r.act.rule.isSome then 4 else 0),
            match r.act.rewrite with | some c => byteOf c.toNat | none => 0,
            match r.act.meter with | some m => byteOf m.val | none => 0,
            match r.act.rule with | some n => byteOf n.val | none => 0, byteOf r.refs] s))) ∧
      (Accepts 14 tag s → 0 < r.refs → exec (.actionClear .addressed tag (pos :: more)) s =
        .next (settle (answered 14 tag .inUse [byteOf r.refs] s))) ∧
      (Accepts 14 tag s → r.refs = 0 → exec (.actionClear .addressed tag (pos :: more)) s =
        .next (settle (answered 14 tag .ok [if r.defined then 1 else 0]
          { s with
            actions := s.actions.set a.val ⟨false, ⟨.forward, .urgent, none, none, none⟩, 0⟩ a.isLt })))) ∧
    (31 < pos.toNat →
      (Accepts 13 tag s → exec (.actionRead .addressed tag (pos :: more)) s =
        .next (settle (answered 13 tag .badIndex [] s))) ∧
      (Accepts 14 tag s → exec (.actionClear .addressed tag (pos :: more)) s =
        .next (settle (answered 14 tag .badIndex [] s))))

/-- R54, R55: METER_WRITE sets rate, burst and policy, fills the credit, ends the excess, clears the counts
when asked, and answers with what stood before; its refusals fall in the order of R54. That the command is the
taking, and the decisions at its close, are the model's (logs 2, 3, 23). -/
def Obligations.MeterWriteSetsTheMeter : Prop :=
  ∀ (tag pos r1 r0 b1 b0 pol clr : Byte) (more : List Byte) (s : State) (rate burst : Nat) (args : List Byte),
    Accepts 15 tag s → rate = r1.toNat * 256 + r0.toNat → burst = b1.toNat * 256 + b0.toNat →
    args = pos :: r1 :: r0 :: b1 :: b0 :: pol :: clr :: more →
    (∀ (m : Fin 16) (p : Policy) (x : Meter), pos.toNat = m.val → p.code = pol → x = s.meters[m] →
      rate ≤ 4095 → 64 ≤ burst → burst ≤ 16383 → clr = 0 ∨ clr = 1 →
      exec (.meterWrite .addressed tag args) s = .next (settle (answered 15 tag .ok
        (bytes16 x.credit ++ [if x.inExcess then 1 else 0] ++ bytes32 x.conform ++ bytes32 x.exceed)
        { s with
          meters := s.meters.set m.val ⟨rate, burst, burst, p, false, if clr = 1 then 0 else x.conform,
            if clr = 1 then 0 else x.exceed⟩ m.isLt }))) ∧
    (15 < pos.toNat →
      exec (.meterWrite .addressed tag args) s = .next (settle (answered 15 tag .badIndex [] s))) ∧
    (pos.toNat ≤ 15 → 4095 < rate ∨ burst < 64 ∨ 16383 < burst ∨ 2 < pol.toNat ∨ 1 < clr.toNat →
      exec (.meterWrite .addressed tag args) s = .next (settle (answered 15 tag .badValue [] s)))

/-- R69, R70: BINRULE_WRITE sets the configuration, clears the three counts when asked and answers with what
stood before; its refusals fall in the order of R69. That the command is the taking, and the decisions at its
close, are the model's (logs 2, 3, 23). -/
def Obligations.BinruleWriteSetsTheRule : Prop :=
  ∀ (tag : Byte) (args : List Byte) (s : State), Accepts 17 tag s → 14 ≤ args.length →
    (∀ (n : Fin 8) (c : BinConfig) (r : BinRule), argNat args 0 = n.val → r = s.rules[n] →
      argByte args 1 = (if c.enabled then 1 else 0) →
      c.base = argNat args 2 * 256 + argNat args 3 → c.base ≤ 1023 →
      c.width = argNat args 4 → c.width ≤ 8 → c.source.code = argByte args 5 →
      c.sourceOffset = argNat args 6 → c.sourceOffset ≤ 47 → c.shift = argNat args 7 → c.shift ≤ 15 →
      c.mode.code = argByte args 8 → c.gate.code = argByte args 9 →
      c.gateOffset = argNat args 10 → c.gateOffset ≤ 47 → c.gateBit = argNat args 11 → c.gateBit ≤ 7 →
      c.increment.code = argByte args 12 → argByte args 13 = 0 ∨ argByte args 13 = 1 →
      exec (.binruleWrite .addressed tag args) s = .next (settle (answered 17 tag .ok
        ([if r.cfg.enabled then 1 else 0] ++ bytes32 r.counted ++ bytes32 r.gatedOut ++
          bytes32 r.sourceAbsent)
        { s with
          rules := s.rules.set n.val (if argByte args 13 = 1 then ⟨c, 0, 0, 0⟩
            else ⟨c, r.counted, r.gatedOut, r.sourceAbsent⟩) n.isLt }))) ∧
    (7 < argNat args 0 →
      exec (.binruleWrite .addressed tag args) s = .next (settle (answered 17 tag .badIndex [] s))) ∧
    (argNat args 0 ≤ 7 →
      1023 < argNat args 2 * 256 + argNat args 3 ∨ 8 < argNat args 4 ∨ 47 < argNat args 6 ∨
        15 < argNat args 7 ∨ 47 < argNat args 10 ∨ 7 < argNat args 11 ∨ 1 < argNat args 1 ∨
        4 < argNat args 5 ∨ 1 < argNat args 8 ∨ 2 < argNat args 9 ∨ 1 < argNat args 12 ∨
        1 < argNat args 13 →
      exec (.binruleWrite .addressed tag args) s = .next (settle (answered 17 tag .badValue [] s)))

/-- R72 to R75: BINS_READ answers with the bins of the range, BINS_READ_CLEAR with the bins and leaves them 0,
BINS_CLEAR with how many stood above 0 and at the maximum and leaves them 0; the refusals fall in the order of
R72. That the command is the taking, and the decisions at its close, are the model's (logs 2, 3, 23). -/
def Obligations.BinsAreReadAndCleared : Prop :=
  ∀ (tag f1 f0 c1 c0 : Byte) (more : List Byte) (s : State) (first count : Nat) (args : List Byte),
    first = f1.toNat * 256 + f0.toNat → count = c1.toNat * 256 + c0.toNat →
    args = f1 :: f0 :: c1 :: c0 :: more →
    (0 < count → first + count ≤ 1024 →
      ∀ cleared : Vector Word32 1024,
        (∀ b : Fin 1024, cleared[b] = if first ≤ b.val ∧ b.val < first + count then 0 else s.bins[b]) →
        (count ≤ 10 → Accepts 19 tag s → exec (.binsRead .addressed tag args) s =
          .next (settle (answered 19 tag .ok
            ([f1, f0, c1, c0] ++ ((s.bins.toList.drop first).take count).flatMap bytes32) s))) ∧
        (count ≤ 10 → Accepts 20 tag s → exec (.binsReadClear .addressed tag args) s =
          .next (settle (answered 20 tag .ok
            ([f1, f0, c1, c0] ++ ((s.bins.toList.drop first).take count).flatMap bytes32)
            { s with bins := cleared }))) ∧
        (Accepts 21 tag s → exec (.binsClear .addressed tag args) s =
          .next (settle (answered 21 tag .ok
            ([f1, f0, c1, c0] ++
              bytes16 (((s.bins.toList.drop first).take count).countP fun w => w ≠ 0) ++
              bytes16 (((s.bins.toList.drop first).take count).countP fun w => w = 0xFFFFFFFF))
            { s with bins := cleared })))) ∧
    (count = 0 ∨ 10 < count →
      (Accepts 19 tag s → exec (.binsRead .addressed tag args) s =
        .next (settle (answered 19 tag .badValue [] s))) ∧
      (Accepts 20 tag s → exec (.binsReadClear .addressed tag args) s =
        .next (settle (answered 20 tag .badValue [] s)))) ∧
    (count = 0 ∨ 1024 < count → Accepts 21 tag s → exec (.binsClear .addressed tag args) s =
      .next (settle (answered 21 tag .badValue [] s))) ∧
    (0 < count → count ≤ 1024 → 1024 < first + count →
      (count ≤ 10 → Accepts 19 tag s → exec (.binsRead .addressed tag args) s =
        .next (settle (answered 19 tag .badIndex [] s))) ∧
      (count ≤ 10 → Accepts 20 tag s → exec (.binsReadClear .addressed tag args) s =
        .next (settle (answered 20 tag .badIndex [] s))) ∧
      (Accepts 21 tag s → exec (.binsClear .addressed tag args) s =
        .next (settle (answered 21 tag .badIndex [] s))))

/-! ### Management: captures, reports and statistics -/

/-- R87 to R89: CAPTURE_FETCH answers with part 0 or part 1 of the oldest record, NO_CAPTURE of an empty ring
and BAD_VALUE for any other part, and changes nothing else; CAPTURE_RELEASE removes the oldest record when its
number is named, and otherwise changes nothing. That the command is the taking, and the decisions at its
close, are the model's (logs 2, 3, 23). -/
def Obligations.CaptureFetchAndRelease : Prop :=
  (∀ (tag part : Byte) (more : List Byte) (s : State), Accepts 22 tag s →
    (∀ (r : CaptureRecord) (rest : List CaptureRecord) (padded : List Byte), s.captures = r :: rest →
      padded = r.payload ++ List.replicate 48 0 →
      (part = 0 → exec (.captureFetch .addressed tag (part :: more)) s =
        .next (settle (answered 22 tag .ok
          (bytes16 r.number.toNat ++ [byteOf (rest.length + 1)] ++ bytes32 r.lineTime ++
            [match r.entry with | some i => byteOf i.val | none => 0xFF,
              match r.action with | some a => byteOf a.val | none => 0xFF, r.outcome.code] ++
            r.header ++ padded.take 24) s))) ∧
      (part = 1 → exec (.captureFetch .addressed tag (part :: more)) s =
        .next (settle (answered 22 tag .ok
          (bytes16 r.number.toNat ++ [byteOf (rest.length + 1), (argByte r.header 1) &&& 0x3F] ++
            (padded.drop 24).take 24) s)))) ∧
    (s.captures = [] → part = 0 ∨ part = 1 → exec (.captureFetch .addressed tag (part :: more)) s =
      .next (settle (answered 22 tag .noCapture (bytes16 s.nextCapture.toNat) s))) ∧
    (part ≠ 0 → part ≠ 1 → exec (.captureFetch .addressed tag (part :: more)) s =
      .next (settle (answered 22 tag .badValue [] s)))) ∧
  ∀ (tag n1 n0 : Byte) (more : List Byte) (s : State), Accepts 23 tag s →
    (∀ (r : CaptureRecord) (rest : List CaptureRecord), s.captures = r :: rest →
      (r.number.toNat = n1.toNat * 256 + n0.toNat →
        exec (.captureRelease .addressed tag (n1 :: n0 :: more)) s =
          .next (settle (answered 23 tag .ok [byteOf rest.length] { s with captures := rest }))) ∧
      (r.number.toNat ≠ n1.toNat * 256 + n0.toNat →
        exec (.captureRelease .addressed tag (n1 :: n0 :: more)) s =
          .next (settle (answered 23 tag .notFound (bytes16 r.number.toNat) s)))) ∧
    (s.captures = [] → exec (.captureRelease .addressed tag (n1 :: n0 :: more)) s =
      .next (settle (answered 23 tag .noCapture (bytes16 s.nextCapture.toNat) s)))

/-- R144: REPORT_ACK removes the SENT record of its sequence, whatever its condition, and answers with its
kind, subject and sends; with no such record it answers NOT_FOUND and the number of SENT records. That this holds of a
RESET_DONE report sent within the reset event, where R151 answers NOT_FOUND, and of a record that has taken the sequence
of an abandoned one, where R143 and R146 do, is the model's choice (logs 26, 28). That the
command is the taking, and the decisions at its close, are the model's (logs 2, 3, 23). -/
def Obligations.ReportAckRemovesTheSentRecord : Prop :=
  ∀ (tag q : Byte) (more : List Byte) (s : State), Accepts 24 tag s →
    (∀ (r : SentReport) (before after : List SentReport), s.sent = before ++ r :: after → r.seq = q →
      (∀ x ∈ before ++ after, x.seq ≠ q) →
      exec (.reportAck .addressed tag (q :: more)) s = .next (settle (answered 24 tag .ok
        ([byteOf r.kind.code] ++ bytes16 r.subject ++ [byteOf r.sends])
        { s with sent := before ++ after }))) ∧
    ((∀ x ∈ s.sent, x.seq ≠ q) → exec (.reportAck .addressed tag (q :: more)) s =
      .next (settle (answered 24 tag .notFound [byteOf s.sent.length] s)))

/-- R201 to R203, R216: STATS_READ answers with the values of its group, or BAD_INDEX above group 3.
STATS_CLEAR zeroes every counter, sets carried to the cells held upstream and answers with it; its own
requests_taken rises after the clear. That the command is the taking, and the decisions at its close, are the
model's (logs 2, 3, 23). -/
def Obligations.StatsReadAndClear : Prop :=
  (∀ (tag g : Byte) (more : List Byte) (s : State) (t : Stats), Accepts 25 tag s → t = s.stats →
    (g = 0 → exec (.statsRead .addressed tag (g :: more)) s = .next (settle (answered 25 tag .ok
      (0 :: [t.started, t.headerBad, t.payloadBad, t.rxAborted, t.poolDropped, t.actionDiscarded,
        t.meterDropped, t.queueDropped, t.forwarded, t.txAborted, t.carried].flatMap bytes32) s))) ∧
    (g = 1 → exec (.statsRead .addressed tag (g :: more)) s = .next (settle (answered 25 tag .ok
      (1 :: [t.received, t.taken, t.forwardedDown, t.droppedDown, t.badDown,
        t.txAbortedDown].flatMap bytes32) s))) ∧
    (g = 2 → exec (.statsRead .addressed tag (g :: more)) s = .next (settle (answered 25 tag .ok
      (2 :: [t.requestsTaken, t.replays, t.mgmtDropped, t.broadcastFailed, t.broadcastRefused, t.reportsLost,
        t.reportsAbandoned, t.capturesLost].flatMap bytes32) s))) ∧
    (g = 3 → exec (.statsRead .addressed tag (g :: more)) s = .next (settle (answered 25 tag .ok
      ([3, byteOf s.freeBuffers, byteOf s.urgent.length, byteOf s.normal.length,
        byteOf (s.waiting.length + s.sent.length), byteOf s.sent.length, byteOf s.captures.length] ++
        bytes32 s.lineTime) s))) ∧
    (3 < g.toNat → exec (.statsRead .addressed tag (g :: more)) s =
      .next (settle (answered 25 tag .badIndex [] s)))) ∧
  ∀ (tag : Byte) (args : List Byte) (s : State) (carried : Word32),
    carried = BitVec.ofNat 32 (receivingTerm s.tailRx + s.urgent.length + s.normal.length) →
    (Accepts 26 tag s → exec (.statsClear .addressed tag args) s = .next (settle (answered 26 tag .ok
      (bytes32 carried) { s with stats := { Stats.zero with carried := carried } }))) ∧
    (Hears s → exec (.statsClear .broadcast tag args) s =
      .next (settle (heard { s with stats := { Stats.zero with carried := carried } })))

/-! ### The upstream path -/

/-- R6, R7, R10: classification finds the first LIVE entry, in order of position, whose masked fields, length range
and presence requirement all agree with the key. -/
def Obligations.ClassificationFindsTheFirstLiveMatch : Prop :=
  ∀ (k : Key) (s : State),
    (∀ e : Entry, entryMatches e k = true ↔
      (∀ j : Nat, (e.kindCare.getLsbD j = true → k.kind.getLsbD j = e.kindValue.getLsbD j) ∧
        (e.channelCare.getLsbD j = true → k.channel.getLsbD j = e.channelValue.getLsbD j) ∧
        (e.destCare.getLsbD j = true → k.dest.getLsbD j = e.destValue.getLsbD j) ∧
        (e.srcCare.getLsbD j = true → k.src.getLsbD j = e.srcValue.getLsbD j) ∧
        (e.probe0Care.getLsbD j = true → k.probe0.getLsbD j = e.probe0Value.getLsbD j) ∧
        (e.probe1Care.getLsbD j = true → k.probe1.getLsbD j = e.probe1Value.getLsbD j)) ∧
      e.lengthMin ≤ k.length ∧ k.length ≤ e.lengthMax ∧
      (e.presence = .bothPresent → k.probe0Present = true ∧ k.probe1Present = true) ∧
      (e.presence = .anyAbsent → k.probe0Present = false ∨ k.probe1Present = false)) ∧
    (∀ i : Fin 64, findHit k s = some i ↔
      (s.entries[i].state = .live ∧ entryMatches s.entries[i] k = true) ∧
        ∀ j : Fin 64, j < i → ¬(s.entries[j].state = .live ∧ entryMatches s.entries[j] k = true)) ∧
    (findHit k s = none ↔
      ∀ i : Fin 64, ¬(s.entries[i].state = .live ∧ entryMatches s.entries[i] k = true))

/-- R97: start-of-cell on Tail in IDLE, from BETWEEN or HUNTING: a buffer is taken, or with none free the cell
passes in DISCARDING, counted and reported. That the decisions it brings about fall at its close is the
model's reading (log 3). -/
def Obligations.StartOfCellTakesABuffer : Prop :=
  ∀ (s s1 : State), s.resetHeld = false → s.tailPort.link = .up →
    s.tailPort.position = .between ∨ s.tailPort.position = .hunting → s.tailRx = .idle →
    s1 = { s with
      tailPort := { s.tailPort with position := .inCell, cellBytes := 0, cellBad := false }
      stats := { s.stats with started := s.stats.started + 1 } } →
    (0 < s.freeBuffers → exec .startOfCell s = .next (settle { s1 with
      freeBuffers := s.freeBuffers - 1, tailRx := .receiving ⟨[], none⟩ })) ∧
    (s.freeBuffers = 0 → exec .startOfCell s = .next (settle (occur .poolExhausted 0 { s1 with
      tailRx := .discarding
      stats := { s1.stats with poolDropped := s1.stats.poolDropped + 1 } })))

/-- R3, R5, R99, R191: header-complete on Tail: a bad header frees the buffer and the cell passes in
DISCARDING; a good one latches the header, the probe offsets and the key-complete point, and with length 0 the
cell is classified in the same event. That the decisions it brings about fall at its close is the model's
reading (log 3). That the command brings the byte itself, as DATA_BYTE does there, is the model's choice (log 1). A code
violation as the sixth symbol fails the header check (R190). -/
def Obligations.HeaderCompleteLatchesOrDiscards : Prop :=
  ∀ (b : Byte) (s s1 : State) (five buf : List Byte) (h : Header), s.resetHeld = false →
    s.tailPort.link = .up → s.tailPort.position = .inCell → s.tailPort.cellBytes < 56 →
    s.tailRx = .receiving ⟨five, none⟩ → five.length = 5 → buf = five ++ [b] → h = headerOf buf →
    s1 = { s with tailPort := { s.tailPort with cellBytes := s.tailPort.cellBytes + 1 } } →
    exec (.dataByte .tail b) s = exec (.headerComplete b) s ∧
    exec (.codeViolation .tail) s = .next (settle { s1 with
      tailPort := { s1.tailPort with cellBad := true }
      freeBuffers := s.freeBuffers + 1
      tailRx := .discarding
      stats := { s.stats with headerBad := s.stats.headerBad + 1 } }) ∧
    (s.tailPort.cellBad = true ∨ b ≠ headerCheck five ∨ 48 < h.length →
      exec (.headerComplete b) s = .next (settle { s1 with
        freeBuffers := s.freeBuffers + 1
        tailRx := .discarding
        stats := { s.stats with headerBad := s.stats.headerBad + 1 } })) ∧
    (s.tailPort.cellBad = false → b = headerCheck five → h.length ≤ 48 →
      ∀ p0 p1 : Nat, p0 = s.settings.probe0Offset → p1 = s.settings.probe1Offset →
      (0 < h.length → exec (.headerComplete b) s = .next (settle { s1 with
        tailRx := .receiving ⟨buf, some ⟨h, p0, p1,
          if max p0 p1 < h.length then max p0 p1 + 1 else h.length, none⟩⟩ })) ∧
      (h.length = 0 → ∃ (w : State) (v : Verdict),
        Classified ⟨h.kind, h.channel, h.dest, h.src, 0, 0, 0, false, false⟩ s1 w v ∧
        exec (.headerComplete b) s =
          .next (settle { w with tailRx := .receiving ⟨buf, some ⟨h, p0, p1, 0, some v⟩⟩ })))

/-- R4, R14, R101: key-complete on Tail classifies the cell and forms its verdict; the probes are the payload
bytes at the latched offsets, or 0x00 when absent. That the decisions it brings about fall at its close is the
model's reading (log 3). That the command brings the byte itself, as DATA_BYTE does there, is the model's choice (log 1). A code
violation as the last byte the key needs stands as 0x00 in the key and marks the cell bad (R190). -/
def Obligations.KeyCompleteFormsTheVerdict : Prop :=
  ∀ (b : Byte) (s s1 : State) (got buf : List Byte) (l : Latched), s.resetHeld = false →
    s.tailPort.link = .up → s.tailPort.position = .inCell → s.tailPort.cellBytes < 56 →
    s.tailRx = .receiving ⟨got, some l⟩ → l.verdict = none → got.length + 1 = 6 + l.keyBytes →
    got.length < 56 → buf = got ++ [b] →
    s1 = { s with tailPort := { s.tailPort with cellBytes := s.tailPort.cellBytes + 1 } } →
    exec (.dataByte .tail b) s = exec (.keyComplete b) s ∧
    (∃ (w : State) (v : Verdict),
      Classified (keyOf l (got ++ [0])) { s1 with tailPort := { s1.tailPort with cellBad := true } } w v ∧
      exec (.codeViolation .tail) s = .next (settle { w with
        tailRx := .receiving ⟨got ++ [0], some { l with verdict := some v }⟩ })) ∧
    ∃ (w : State) (v : Verdict),
      Classified ⟨l.header.kind, l.header.channel, l.header.dest, l.header.src, l.header.length,
        if l.probe0Offset < l.header.length then argByte buf (6 + l.probe0Offset) else 0,
        if l.probe1Offset < l.header.length then argByte buf (6 + l.probe1Offset) else 0,
        l.probe0Offset < l.header.length, l.probe1Offset < l.header.length⟩ s1 w v ∧
      exec (.keyComplete b) s = .next (settle { w with
        tailRx := .receiving ⟨buf, some { l with verdict := some v }⟩ })

/-- R63 to R68: a copy that is not enabled counts nothing; the gate stops a cell before the source is looked at, and an
absent source stops it after. A cell past both is added to the bin at its index, saturating, with counted raised; a
bin that reaches its maximum from below raises BIN_SATURATED; the index stays in the table. -/
def Obligations.BinCountingFollowsTheRuleCopy : Prop :=
  (∀ (w : Word32) (n : Nat), (satAdd w n).toNat = min (w.toNat + n) 4294967295) ∧
  (∀ (n : Fin 8) (c : BinConfig) (h : Header) (buf : List Byte) (s : State),
    (c.enabled = false → countCell n c h buf s = s) ∧
    (c.enabled = true → gateStops c h buf → countCell n c h buf s = { s with
      rules := s.rules.set n.val
        { s.rules[n] with gatedOut := satAdd s.rules[n].gatedOut 1 } n.isLt }) ∧
    (c.enabled = true → ¬gateStops c h buf → (∀ v, ¬sourceGives c h buf v) →
      countCell n c h buf s = { s with
        rules := s.rules.set n.val
          { s.rules[n] with sourceAbsent := satAdd s.rules[n].sourceAbsent 1 } n.isLt })) ∧
  ∀ (n : Fin 8) (c : BinConfig) (h : Header) (buf : List Byte) (s : State) (v value index amount : Nat),
    c.enabled = true → ¬gateStops c h buf → sourceGives c h buf v →
    value = (if c.mode = .wrap then v / 2 ^ c.shift % 2 ^ c.width
      else min (v / 2 ^ c.shift) (2 ^ c.width - 1)) →
    index = c.base - c.base % 2 ^ c.width + value → c.base ≤ 1023 → c.width ≤ 8 →
    amount = (if c.increment = .one then 1 else 6 + h.length + if 0 < h.length then 2 else 0) →
    ∃ hi : index < 1024, value ≤ 255 ∧ ∀ s1 : State,
      s1 = { s with
        rules := s.rules.set n.val { s.rules[n] with counted := satAdd s.rules[n].counted 1 } n.isLt
        bins := s.bins.set index
          (if s.bins[index].toNat + amount ≤ 4294967295 then s.bins[index] + BitVec.ofNat 32 amount
            else 4294967295) hi } →
      countCell n c h buf s =
        if s.bins[index] ≠ 4294967295 ∧ s1.bins[index] = 4294967295 then occur .binSaturated index s1 else s1

/-- R63, R83 to R85, R103 to R105, R111: end-of-cell on Tail with the payload check passed decides the outcome, counts,
captures, rewrites and queues the cell or frees its buffer, and releases the held entry; BIN_SATURATED, POOL_EXHAUSTED
with subject 1 and CAPTURE_READY or CAPTURE_LOST are raised in this order. That the decisions it
brings about fall at its close is the model's reading (log 3). -/
def Obligations.EndOfCellDisposesOfAGoodCell : Prop :=
  ∀ (s : State) (buf : List Byte) (l : Latched) (v : Verdict) (o : CellOutcome) (captured : Bool),
    s.resetHeld = false → s.tailPort.link = .up → s.tailPort.position = .inCell →
    s.tailRx = .receiving ⟨buf, some l⟩ → l.verdict = some v →
    PayloadGood s.tailPort.cellBytes s.tailPort.cellBad l.header.length buf → o = outcomeOf v s →
    captured = decide (v.act.disposition = .captureForward ∨ v.act.disposition = .captureDiscard) →
    ∀ c e : State, c = (match v.rule with | some (n, cfg) => countCell n cfg l.header buf s | none => s) →
    e = endOccurrences v o c →
    ∃ u : State, exec .endOfCell s = .next (settle u) ∧ u.bins = c.bins ∧ u.rules = c.rules ∧
      u.waiting = e.waiting ∧ u.lostSinceSent = e.lostSinceSent ∧
      u.captures = s.captures ++ (if captured ∧ s.captures.length < 8 then
        [⟨s.nextCapture, s.lineTime, v.entry, v.actionPos, o, buf.take 6,
          (buf.drop 6).take l.header.length⟩] else []) ∧
      u.nextCapture = (if captured ∧ s.captures.length < 8 then s.nextCapture + 1
        else s.nextCapture) ∧
      u.urgent = s.urgent ++ (if o = .forwardedUrgent then [rewritten v.act buf] else []) ∧
      u.normal = s.normal ++ (if o = .forwardedNormal then [rewritten v.act buf] else []) ∧
      u.freeBuffers = s.freeBuffers + (if o = .forwardedUrgent ∨ o = .forwardedNormal then 0 else 1) ∧
      (∃ w : State, Released v.entry s w ∧ u.entries = w.entries ∧ u.actions = w.actions) ∧
      u.stats = { s.stats with
        actionDiscarded := s.stats.actionDiscarded + (if o = .actionDiscarded then 1 else 0)
        meterDropped := s.stats.meterDropped + (if o = .meterDropped then 1 else 0)
        queueDropped := s.stats.queueDropped + (if o = .queueDropped then 1 else 0)
        capturesLost := s.stats.capturesLost +
          (if captured ∧ 8 ≤ s.captures.length then 1 else 0)
        reportsLost := e.stats.reportsLost } ∧
      u = { s with
        bins := u.bins, rules := u.rules, captures := u.captures, nextCapture := u.nextCapture,
        urgent := u.urgent, normal := u.normal, freeBuffers := u.freeBuffers, entries := u.entries,
        actions := u.actions, stats := u.stats, waiting := u.waiting, lostSinceSent := u.lostSinceSent,
        tailRx := .idle, tailPort := { s.tailPort with violations := 0, position := .between } }

/-- R100, R102, R106: end-of-cell on Tail of a cell cut before its sixth byte, of one whose payload check
fails, before or after its key-complete, and of one that passes in DISCARDING. That the decisions it brings
about fall at its close is the model's reading (log 3). -/
def Obligations.EndOfCellFreesAFailedCell : Prop :=
  ∀ (s s1 : State) (buf : List Byte), s.resetHeld = false → s.tailPort.link = .up →
    s.tailPort.position = .inCell →
    s1 = { s with tailPort := { s.tailPort with violations := 0, position := .between } } →
    (s.tailRx = .receiving ⟨buf, none⟩ → exec .endOfCell s = .next (settle { s1 with
      freeBuffers := s.freeBuffers + 1
      tailRx := .idle
      stats := { s.stats with headerBad := s.stats.headerBad + 1 } })) ∧
    (s.tailRx = .discarding → exec .endOfCell s = .next (settle { s1 with tailRx := .idle })) ∧
    (∀ l : Latched, s.tailRx = .receiving ⟨buf, some l⟩ →
      ¬PayloadGood s.tailPort.cellBytes s.tailPort.cellBad l.header.length buf →
      (∀ v : Verdict, l.verdict = some v → ∃ u : State, Released v.entry s1 u ∧
        exec .endOfCell s = .next (settle { u with
          freeBuffers := s.freeBuffers + 1
          tailRx := .idle
          stats := { s.stats with payloadBad := s.stats.payloadBad + 1 } })) ∧
      (l.verdict = none → ∃ (w : State) (v : Verdict), Classified (keyOf l buf) s1 w v ∧
        exec .endOfCell s = .next (settle { w with
          freeBuffers := s.freeBuffers + 1
          tailRx := .idle
          stats := { w.stats with payloadBad := w.stats.payloadBad + 1 } })))

/-! ### Occurrences, grants and reports -/

/-- R137: an occurrence is ignored when its kind is disabled, merged into a WAITING record of its kind and subject,
made a new record while the queue has room, and lost otherwise. -/
def Obligations.OccurrenceIsMergedQueuedOrLost : Prop :=
  ∀ (k : ReportKind) (n : Nat) (s : State),
    (s.settings.reportEnable.getLsbD (k.code - 1) = false → occur k n s = s) ∧
    (s.settings.reportEnable.getLsbD (k.code - 1) = true →
      (∀ (before after : List WaitingReport) (w : WaitingReport), s.waiting = before ++ w :: after →
        w.kind = k → w.subject = n → (∀ x ∈ before ++ after, ¬(x.kind = k ∧ x.subject = n)) →
        occur k n s = { s with
          waiting := before ++ { w with occurrences := min (w.occurrences + 1) 255 } :: after }) ∧
      ((∀ x ∈ s.waiting, ¬(x.kind = k ∧ x.subject = n)) → s.waiting.length + s.sent.length < 16 →
        occur k n s = { s with waiting := s.waiting ++ [⟨k, n, 1, s.lineTime⟩] }) ∧
      ((∀ x ∈ s.waiting, ¬(x.kind = k ∧ x.subject = n)) → 16 ≤ s.waiting.length + s.sent.length →
        occur k n s = { s with
          lostSinceSent := min (s.lostSinceSent + 1) 255
          stats := { s.stats with reportsLost := s.stats.reportsLost + 1 } }))

/-- R119, R121, R139: which source a grant decision selects, by what the four sources offer and the guard of the
starvation limit. What the report source offers without an address is log 16. -/
def Obligations.GrantSelectsInOrderWithTheGuard : Prop :=
  ∀ (s : State) (R U P N G : Prop),
    (R ↔ s.nodeAddress ≠ none ∧ s.replies ≠ []) → (U ↔ s.urgent ≠ []) →
    (P ↔ s.nodeAddress ≠ none ∧
      ((∃ r ∈ s.sent, r.cond = .due) ∨ (s.sent.length < 4 ∧ s.waiting ≠ []))) →
    (N ↔ s.normal ≠ []) → (G ↔ s.settings.starvationLimit ≤ s.starvation) →
    (selectSource s = some .normal ↔ N ∧ (G ∨ (¬R ∧ ¬U ∧ ¬P))) ∧
    (selectSource s = some .reply ↔ R ∧ ¬(N ∧ G)) ∧
    (selectSource s = some .urgent ↔ U ∧ ¬R ∧ ¬(N ∧ G)) ∧
    (selectSource s = some .report ↔ P ∧ ¬R ∧ ¬U ∧ ¬(N ∧ G)) ∧
    (selectSource s = none ↔ ¬R ∧ ¬U ∧ ¬P ∧ ¬N)

/-- R120, R122, R123: TRANSMIT_START with the transmitter IDLE and the Head port UP grants the selected
source: the cell it offers goes into transmission and the starvation count moves; with no offer nothing
changes. While a cell is in transmission, a DETACHED one too (R118, R131), or the port is not UP (R133), there is no
decision and nothing changes. That the command carries out the grant decision is the model's choice (log 4), and so is the src of a reply to
an ADDRESS_ASSIGN that a second one has overtaken (log 25). -/
def Obligations.TransmitStartGrantsTheSelectedCell : Prop :=
  (∀ s : State, s.resetHeld = false → s.headTx ≠ .idle ∨ s.headPort.link ≠ .up →
    exec .transmitStart s = .next s) ∧
  ∀ (s : State) (count : Nat), s.resetHeld = false → s.headTx = .idle → s.headPort.link = .up →
    count = (if s.normal = [] then s.starvation else s.starvation + 1) →
    (selectSource s = none → exec .transmitStart s = .next s) ∧
    (selectSource s = some .urgent → ∃ c, s.urgent.head? = some c ∧
      exec .transmitStart s = .next { s with headTx := .sending .urgent c, starvation := count }) ∧
    (selectSource s = some .normal → ∃ c, s.normal.head? = some c ∧
      exec .transmitStart s = .next { s with headTx := .sending .normal c, starvation := 0 }) ∧
    (selectSource s = some .reply → ∃ (a : Byte) (r : Reply) (rest : List Reply),
      s.nodeAddress = some a ∧ s.replies = r :: rest ∧
      exec .transmitStart s = .next { s with
        headTx := .sending .reply (buildCell ⟨4, 0, 3 + r.results.length, 0, a, r.tag⟩
          ([r.kind, r.tag, r.status.code] ++ r.results))
        replies := { r with inTransmission := true } :: rest
        starvation := count })

/-- R139 to R141, R217: TRANSMIT_START that grants the report source sends the first due record again, or else
the oldest WAITING one with the next sequence that no SENT record holds; the cell carries the losses counted
so far. That the command carries out the grant decision is the model's choice (log 4). -/
def Obligations.TransmitStartSendsTheNamedReport : Prop :=
  ∀ (s : State) (count : Nat) (a : Byte), s.resetHeld = false → s.headTx = .idle → s.headPort.link = .up →
    count = (if s.normal = [] then s.starvation else s.starvation + 1) → s.nodeAddress = some a →
    selectSource s = some .report → s.sent.length ≤ 4 →
    (∀ (before after : List SentReport) (r : SentReport), s.sent = before ++ r :: after → r.cond = .due →
      (∀ x ∈ before, x.cond ≠ .due) → (∀ x ∈ before ++ after, x.seq ≠ r.seq) →
      exec .transmitStart s = .next { s with
        sent := before ++ { r with sends := r.sends + 1, cond := .inTransmission } :: after
        lostSinceSent := 0
        starvation := count
        headTx := .sending (.report r.seq) (buildCell ⟨5, 0, 11, 0, a, r.seq⟩
          ([byteOf r.kind.code] ++ bytes16 r.subject ++ [r.seq, byteOf (r.sends + 1), byteOf r.occurrences] ++
            bytes32 r.firstTime ++ [byteOf s.lostSinceSent])) }) ∧
    ((∀ x ∈ s.sent, x.cond ≠ .due) → ∃ (w : WaitingReport) (rest : List WaitingReport) (skipped : Nat) (q : Byte),
      s.waiting = w :: rest ∧ skipped ≤ s.sent.length ∧ q = s.nextSequence + BitVec.ofNat 8 skipped ∧
      (∀ x ∈ s.sent, x.seq ≠ q) ∧
      (∀ j < skipped, ∃ x ∈ s.sent, x.seq = s.nextSequence + BitVec.ofNat 8 j) ∧
      exec .transmitStart s = .next { s with
        waiting := rest
        sent := s.sent ++ [⟨w.kind, w.subject, w.occurrences, w.firstTime, q, 1, .inTransmission⟩]
        nextSequence := q + 1
        lostSinceSent := 0
        starvation := count
        headTx := .sending (.report q) (buildCell ⟨5, 0, 11, 0, a, q⟩
          ([byteOf w.kind.code] ++ bytes16 w.subject ++ [q, 1, byteOf w.occurrences] ++
            bytes32 w.firstTime ++ [byteOf s.lostSinceSent])) })

/-- R110, R124, R126, R131, R142, R175: TRANSMIT_COMPLETE frees the transmitter and tells the cell's source: a
data cell leaves its queue, a reply leaves the reply queue, with the reset it brings about, a report's timer
starts, and a DETACHED cell tells no one. That the decisions it brings about fall at its close is the model's
reading (log 3). -/
def Obligations.TransmitCompleteTellsTheSource : Prop :=
  ∀ (s s1 : State) (cell : Cell), s.resetHeld = false → s1 = { s with headTx := .idle } →
    (s.headTx = .sending .urgent cell → ∀ c rest, s.urgent = c :: rest →
      exec .transmitComplete s = .next (settle { s1 with
        urgent := rest
        freeBuffers := s.freeBuffers + 1
        stats := { s.stats with forwarded := s.stats.forwarded + 1 } })) ∧
    (s.headTx = .sending .normal cell → ∀ c rest, s.normal = c :: rest →
      exec .transmitComplete s = .next (settle { s1 with
        normal := rest
        freeBuffers := s.freeBuffers + 1
        starvation := if rest = [] then 0 else s.starvation
        stats := { s.stats with forwarded := s.stats.forwarded + 1 } })) ∧
    (s.headTx = .sending .reply cell → ∀ r rest, s.replies = r :: rest → r.inTransmission = true →
      (∀ x ∈ rest, x.inTransmission = false) →
      exec .transmitComplete s = .next (settle
        (if r.resetMark then afterDeviceReset { s1 with replies := rest } else { s1 with replies := rest }))) ∧
    (∀ q : Byte, s.headTx = .sending (.report q) cell →
      exec .transmitComplete s = .next (settle { s1 with
        sent := s.sent.map fun r => if r.seq = q then
          { r with cond := .timing (s.lineTime + BitVec.ofNat 32 (s.settings.reportTimeout * 1000)) }
          else r })) ∧
    (s.headTx = .sending .detached cell → exec .transmitComplete s = .next (settle s1))

/-- R143: the expiry of a SENT record's timer makes its resend due, at the end of the due order, after 1 to 3
sends, and abandons it after the fourth. That the decisions it brings about fall at its close is the model's
reading (log 3). When an expiry may be commanded is the model's choice (log 6); the due records stand in their
order in `sent` (log 15). -/
def Obligations.ReportTimerExpiryMakesDueOrAbandons : Prop :=
  ∀ (s : State) (before after : List SentReport) (r : SentReport), s.resetHeld = false →
    s.sent = before ++ r :: after → r.cond = .timing s.lineTime → (∀ x ∈ before ++ after, x.seq ≠ r.seq) →
    (r.sends ≤ 3 → exec (.reportTimerExpiry r.seq) s = .next (settle { s with
      sent := before ++ after ++ [{ r with cond := .due }] })) ∧
    (r.sends = 4 → exec (.reportTimerExpiry r.seq) s = .next (settle { s with
      sent := before ++ after
      stats := { s.stats with reportsAbandoned := s.stats.reportsAbandoned + 1 } }))

/-! ### Meters, time and the refill -/

/-- R46: a refill raises the credit of every meter with a rate, up to its burst, and changes nothing else of the
meters; the next interval starts at once (R45). -/
def Obligations.RefillRaisesEveryCredit : Prop :=
  ∀ s : State, s.resetHeld = false → s.refillLeft = 0 →
    ∃ t : State, exec .refillExpiry s = .next t ∧
      (∀ m : Fin 16, t.meters[m] = if 0 < s.meters[m].rate then
        { s.meters[m] with credit := min s.meters[m].burst (s.meters[m].credit + s.meters[m].rate) }
        else s.meters[m]) ∧
      t = { s with meters := t.meters, refillLeft := s.settings.refillInterval }

/-- R208: a tick raises the line time by 1 modulo 2^32, and the refill interval counts down with it. Where the
tick finds expiries undone it carries them out first: it does what REFILL_EXPIRY and then a REPORT_TIMER_EXPIRY for each
overdue record, in the order of the records, would have done (logs 6 and 7, the model's choices). -/
def Obligations.LineTimeStepsEveryMicrosecond : Prop :=
  ∀ s : State, s.resetHeld = false →
    (s.refillLeft ≠ 0 → (∀ r ∈ s.sent, r.cond ≠ .timing s.lineTime) →
      exec .lineTimeTick s = .next { s with lineTime := s.lineTime + 1, refillLeft := s.refillLeft - 1 }) ∧
    ∃ t u v : State, exec .lineTimeTick s = .next t ∧ t = { v with lineTime := s.lineTime + 1, refillLeft :=
        (if s.refillLeft = 0 then s.settings.refillInterval else s.refillLeft) - 1 } ∧
      exec .refillExpiry s = .next u ∧ v = expireOverdue u ∧
      Runs ((s.sent.filter fun r => r.cond == .timing s.lineTime).map fun r => .reportTimerExpiry r.seq) u v

/-! ### Link ports and the downstream path -/

/-- R184, R185: signal takes a DOWN port to ALIGNING; each alignment word raises the run, any other symbol
breaks it, and the eighth takes the port UP with its pin driven and LINK_CHANGED raised. That the decisions it
brings about fall at its close is the model's reading (log 3). -/
def Obligations.EightAlignmentWordsBringAPortUp : Prop :=
  ∀ (p : Side) (s : State) (x : Port), s.resetHeld = false → x = s.port p →
    (exec (.signalDetected p) s =
      .next (if x.link = .down then s.setPort p { x with link := .aligning, run := 0 } else s)) ∧
    (x.link = .aligning →
      (x.run < 7 → exec (.alignmentWord p) s = .next (settle (s.setPort p { x with run := x.run + 1 }))) ∧
      (7 ≤ x.run → exec (.alignmentWord p) s = .next (settle (occur .linkChanged (if p = .head then 0 else 1)
        (s.setPort p
          { x with link := .up, run := 8, violations := 0, position := .between, upPin := true })))) ∧
      ∀ y : Symbol, y ≠ .alignment →
        exec (symbolOf p y) s = .next (settle (s.setPort p { x with run := 0 }))) ∧
    (x.link = .down → ∀ y : Symbol, exec (symbolOf p y) s = .next (settle s))

/-- R188, R190: while the port is UP: the symbols that change nothing, the alignment word that ends HUNTING,
and the bytes received into a cell that reach neither header-complete nor key-complete, a code violation
marking the cell bad and standing as one byte of 0x00. A cell that passes in DISCARDING stores none of its bytes (R95,
R193). A code violation after 56 symbols of a cell is counted, marks it bad and is no framing violation, and nothing of
it is stored (the model's reading, log 9). That the decisions it brings about fall at its close is the model's reading
(log 3). -/
def Obligations.SymbolsAreHandledByPosition : Prop :=
  ∀ (p : Side) (b : Byte) (s : State) (x : Port), s.resetHeld = false → x = s.port p → x.link = .up →
    (x.position = .between → exec (.alignmentWord p) s = .next (settle s)) ∧
    (x.position = .hunting →
      exec (.alignmentWord p) s = .next (settle (s.setPort p { x with position := .between })) ∧
      exec (.dataByte p b) s = .next (settle s) ∧ exec (.codeViolation p) s = .next (settle s) ∧
      exec (symbolOf p .endDelimiter) s = .next (settle s)) ∧
    (x.position = .inCell → 56 ≤ x.cellBytes →
      (p = .tail → ∀ r : Reception, s.tailRx = .receiving r → 56 ≤ r.buf.length) →
      (p = .head → ∀ buf : List Byte, s.headRx = .receiving buf → 56 ≤ buf.length) →
      exec (.codeViolation p) s =
        .next (settle (s.setPort p { x with cellBytes := x.cellBytes + 1, cellBad := true }))) ∧
    (x.position = .inCell → x.cellBytes < 56 →
      ((p = .tail ∧ s.tailRx = .discarding) ∨ (p = .head ∧ s.headRx = .discarding) →
        exec (.dataByte p b) s = .next (settle (s.setPort p { x with cellBytes := x.cellBytes + 1 })) ∧
        exec (.codeViolation p) s =
          .next (settle (s.setPort p { x with cellBytes := x.cellBytes + 1, cellBad := true }))) ∧
      (∀ (r : Reception), p = .tail → s.tailRx = .receiving r → r.buf.length < 56 →
        (∀ l ∈ r.hdr, r.buf.length + 1 ≠ 6 + l.keyBytes) → (r.hdr = none → r.buf.length ≠ 5) →
        exec (.dataByte p b) s = .next (settle { s with
          tailPort := { x with cellBytes := x.cellBytes + 1 }
          tailRx := .receiving { r with buf := r.buf ++ [b] } }) ∧
        exec (.codeViolation p) s = .next (settle { s with
          tailPort := { x with cellBytes := x.cellBytes + 1, cellBad := true }
          tailRx := .receiving { r with buf := r.buf ++ [0] } })) ∧
      (∀ buf : List Byte, p = .head → s.headRx = .receiving buf → buf.length < 56 → buf.length ≠ 5 →
        exec (.dataByte p b) s = .next (settle { s with
          headPort := { x with cellBytes := x.cellBytes + 1 }
          headRx := .receiving (buf ++ [b]) }) ∧
        exec (.codeViolation p) s = .next (settle { s with
          headPort := { x with cellBytes := x.cellBytes + 1, cellBad := true }
          headRx := .receiving (buf ++ [0]) })))

/-- R98, R186, R188, R189: a framing violation raises the violation count and moves the framing position; the first two
in a row fail the cell in reception, and a start delimiter then begins the next; the third takes the port from UP to
ALIGNING, with its transmission and its cell in reception ended, and no cell begins. That the decisions fall at the
close is the model's reading (log 3), and so are the order of a realignment's parts (log 8); the kept counts and
position are the model's choice (log 10), and how far a transmission had come is a free value (log 19). The
framing violation of a data byte after 56 symbols of any kind is the model's reading (log 9). -/
def Obligations.ThirdFramingViolationLeavesUp : Prop :=
  ∀ (p : Side) (y : Symbol) (s : State) (x : Port) (after : FramingPosition), s.resetHeld = false →
    x = s.port p → x.link = .up → violationTo x y = some after →
    (x.violations < 2 → ∃ t : State, exec (symbolOf p y) s = .next t ∧ (t.port p).link = .up ∧
      (t.port p).violations = x.violations + 1 ∧ (t.port p).position = after ∧
      (t.port p).upPin = x.upPin) ∧
    (x.violations < 2 → ∀ s1 : State,
      s1 = s.setPort p { x with violations := x.violations + 1, position := after } →
      (x.position ≠ .inCell → exec (symbolOf p y) s = .next (settle s1)) ∧
      (x.position = .inCell → ∃ u : State, CellFailed p s1 u ∧
        exec (symbolOf p y) s = .next (settle (if y = .startDelimiter then cellBegun p u else u)))) ∧
    (2 ≤ x.violations → ∃ u : State, Realigned p .aligning s u ∧
      exec (symbolOf p y) s = .next (settle u)) ∧
    (2 ≤ x.violations → ∃ t : State, exec (symbolOf p y) s = .next t ∧ (t.port p).link = .aligning ∧
      (t.port p).run = 0 ∧ (t.port p).upPin = false ∧
      (p = .head → t.headTx = .idle ∧ (x.position = .inCell → t.headRx = .idle)) ∧
      (p = .tail → t.tailTx = .idle ∧ (x.position = .inCell → t.tailRx = .idle)))

/-- R107, R110, R125, R184, R186, R193, R196: loss of signal takes a port DOWN; from UP it is a realignment: the pin is
released, the cell in reception is aborted, the cell in transmission is cut short and its source told, and LINK_CHANGED
is raised. That the decisions it brings about fall at its close (log 3) and that the parts of a realignment fall in this
order (log 8) are the model's readings; the kept run, violations and position of a DOWN port are the model's choice (log
10), and how far a transmission had come is a free value (log 19). -/
def Obligations.LossOfSignalAbortsWhatThePortCarries : Prop :=
  ∀ (p : Side) (s : State) (x : Port), s.resetHeld = false → x = s.port p →
    (x.link = .down → exec (.lossOfSignal p) s = .next (settle s)) ∧
    (x.link = .aligning →
      exec (.lossOfSignal p) s = .next (settle (s.setPort p { x with link := .down }))) ∧
    (x.link = .up → ∃ u : State, Realigned p .down s u ∧ exec (.lossOfSignal p) s = .next (settle u) ∧
      u.port p = { x with link := .down, upPin := false } ∧
      (p = .head → u.tailPort = s.tailPort ∧ u.downQueue = s.downQueue ∧ u.tailTx = s.tailTx ∧ u.headTx = .idle) ∧
      (p = .tail → u.headPort = s.headPort ∧ u.urgent = s.urgent ∧ u.normal = s.normal ∧
        u.replies = s.replies ∧ u.sent = s.sent ∧ u.headTx = s.headTx ∧ u.tailTx = .idle))

/-- R191, R193: the Head receive side begins a cell at its start delimiter, looks at its header at the sixth
byte, and counts a cell that fails at its end in bad_down. That the decisions it brings about fall at its
close is the model's reading (log 3). That the command brings the byte itself, as DATA_BYTE does there, is the
model's choice (log 1). A code violation as the sixth symbol fails the header check (R190). -/
def Obligations.HeadReceivesACell : Prop :=
  ∀ (b : Byte) (s : State) (x : Port), s.resetHeld = false → x = s.headPort → x.link = .up →
    (x.position = .between ∨ x.position = .hunting → s.headRx = .idle →
      exec .headStartOfCell s = .next (settle { s with
        headPort := { x with position := .inCell, cellBytes := 0, cellBad := false }
        headRx := .receiving [] })) ∧
    (x.position = .inCell → x.cellBytes < 56 → ∀ five : List Byte, s.headRx = .receiving five →
      five.length = 5 →
      exec (.dataByte .head b) s = exec (.headHeaderComplete b) s ∧
      exec (.codeViolation .head) s = .next (settle { s with
        headPort := { x with cellBytes := x.cellBytes + 1, cellBad := true }
        headRx := .discarding
        stats := { s.stats with badDown := s.stats.badDown + 1 } }) ∧
      (x.cellBad = true ∨ b ≠ headerCheck five ∨ 48 < (headerOf (five ++ [b])).length →
        exec (.headHeaderComplete b) s = .next (settle { s with
          headPort := { x with cellBytes := x.cellBytes + 1 }
          headRx := .discarding
          stats := { s.stats with badDown := s.stats.badDown + 1 } })) ∧
      (x.cellBad = false → b = headerCheck five → (headerOf (five ++ [b])).length ≤ 48 →
        exec (.headHeaderComplete b) s = .next (settle { s with
          headPort := { x with cellBytes := x.cellBytes + 1 }
          headRx := .receiving (five ++ [b]) }))) ∧
    (x.position = .inCell → ∀ s1 : State,
      s1 = { s with headPort := { x with violations := 0, position := .between }, headRx := .idle } →
      (s.headRx = .discarding → exec .headEndOfCell s = .next (settle s1)) ∧
      (∀ buf : List Byte, s.headRx = .receiving buf →
        buf.length < 6 ∨ ¬PayloadGood x.cellBytes x.cellBad (headerOf buf).length buf →
        exec .headEndOfCell s = .next (settle { s1 with
          stats := { s.stats with badDown := s.stats.badDown + 1 } })))

/-- R192, R194, R195: end-of-cell of a good cell on Head: received rises, and the cell is forwarded
downstream, handed to the management block, or both, by its kind and dest and the node address. That the
command is the taking, and the decisions at its close, are the model's (logs 2, 3, 23). -/
def Obligations.GoodHeadCellIsForwardedOrTaken : Prop :=
  ∀ (s s1 : State) (buf payload : List Byte) (h : Header), s.resetHeld = false → s.headPort.link = .up →
    s.headPort.position = .inCell → s.headRx = .receiving buf → 6 ≤ buf.length → h = headerOf buf →
    PayloadGood s.headPort.cellBytes s.headPort.cellBad h.length buf →
    payload = (buf.drop 6).take h.length →
    s1 = { s with
      headPort := { s.headPort with violations := 0, position := .between }
      headRx := .idle
      stats := { s.stats with received := s.stats.received + 1 } } →
    (h.kind ≠ 3 ∨ (h.dest ≠ 0xFF ∧ s.nodeAddress ≠ some h.dest ∧
        (h.dest ≠ 0xFE ∨ s.nodeAddress ≠ none)) →
      (s.downQueue.length < 4 → exec .headEndOfCell s =
        .next (settle { s1 with downQueue := s.downQueue ++ [buf] })) ∧
      (4 ≤ s.downQueue.length → exec .headEndOfCell s = .next (settle { s1 with
        stats := { s1.stats with droppedDown := s.stats.droppedDown + 1 } }))) ∧
    (h.kind = 3 → h.dest ≠ 0xFF →
      s.nodeAddress = some h.dest ∨ (h.dest = 0xFE ∧ s.nodeAddress = none) →
      exec .headEndOfCell s = .next (settle (takePayload .addressed payload
        { s1 with stats := { s1.stats with taken := s.stats.taken + 1 } }))) ∧
    (h.kind = 3 → h.dest = 0xFF → ∀ s2 : State,
      s2 = { s1 with
        downQueue := if s.downQueue.length < 4 then s.downQueue ++ [buf] else s.downQueue
        stats := { s1.stats with
          taken := s.stats.taken + 1
          droppedDown := s.stats.droppedDown + if s.downQueue.length < 4 then 0 else 1 } } →
      exec .headEndOfCell s = .next (settle (takePayload .broadcast payload s2)))

/-- R153, R154: a request cell handed over is the request command of its kind, tag and arguments; a payload
under 2 bytes is dropped with mgmt_dropped. That a request command is the taking alone is the model's choice
(log 2). That the decisions it brings about fall at its close is the model's reading (log 3). -/
def Obligations.HandedOverPayloadIsTheRequestCommand : Prop :=
  ∀ (f : Form) (k : Kind) (tag : Byte) (args payload : List Byte) (s : State), s.resetHeld = false →
    (exec (requestOf k f tag args) s = .next (settle (takePayload f (k.code :: tag :: args) s))) ∧
    (payload.length < 2 → takePayload f payload s =
      { s with stats := { s.stats with mgmtDropped := s.stats.mgmtDropped + 1 } })

/-- R196: the Tail transmitter starts when it is IDLE, the Tail port is UP and the queue holds a cell; at the
end of the transmission the cell leaves the queue and forwarded_down rises. That TAIL_TRANSMIT_START carries out the
open decision, and otherwise changes nothing, is the model's choice (log 4). That the decisions it brings about
fall at its close is the model's reading (log 3). -/
def Obligations.TailTransmitterSendsTheOldestCell : Prop :=
  ∀ s : State, s.resetHeld = false →
    (s.tailTx = .idle → s.tailPort.link = .up → s.downQueue ≠ [] →
      exec .tailTransmitStart s = .next { s with tailTx := .sending }) ∧
    (s.tailTx = .sending ∨ s.tailPort.link ≠ .up ∨ s.downQueue = [] →
      exec .tailTransmitStart s = .next s) ∧
    (s.tailTx = .sending → ∀ c rest, s.downQueue = c :: rest →
      exec .tailTransmitComplete s = .next (settle { s with
        tailTx := .idle
        downQueue := rest
        stats := { s.stats with forwardedDown := s.stats.forwardedDown + 1 } }))

/-! ### Encodings -/

/-- R213, R214: the layout of a header, and the checks of nine bytes that R214 gives. A built cell reads back: its header
gives the six values it was built from, and both of its checks pass.
R41: a channel rewrite replaces the channel of the header and recomputes its check; nothing else of the cell
changes. R183: on the line a cell is its bytes between a start and an end delimiter; a port sends the cell in
transmission, and alignment words whenever there is none, unless RESETN is low (R210). -/
def Obligations.HeadersAreBuiltReadAndRewritten : Prop :=
  (∀ (b0 b1 b2 b3 b4 : Byte) (rest : List Byte) (h : Header), h = headerOf (b0 :: b1 :: b2 :: b3 :: b4 :: rest) →
    h.kind.toNat = b0.toNat / 16 ∧ h.channel.toNat = b0.toNat % 16 * 4 + b1.toNat / 64 ∧
    h.length = b1.toNat % 64 ∧ h.dest = b2 ∧ h.src = b3 ∧ h.seq = b4) ∧
  (headerCheck [0x31, 0x32, 0x33, 0x34, 0x35, 0x36, 0x37, 0x38, 0x39] = 0xF4 ∧
    payloadCheck [0x31, 0x32, 0x33, 0x34, 0x35, 0x36, 0x37, 0x38, 0x39] = 0x29B1) ∧
  (∀ (h : Header) (payload : List Byte), h.length = payload.length → payload.length ≤ 48 →
    headerOf (buildCell h payload) = h ∧ headerCheckPasses (buildCell h payload) = true ∧
    payloadOf (buildCell h payload) h.length = payload ∧
    PayloadGood (buildCell h payload).length false h.length (buildCell h payload)) ∧
  (∀ s : State,
    (∀ p : Side, (s.port p).txDriven = false → s.sends p = .silent) ∧
    (s.headPort.txDriven = true →
      (s.headTx = .idle → s.sends .head = .alignmentWords) ∧
      ∀ src cell, s.headTx = .sending src cell →
        s.sends .head = .cell ([.startDelimiter] ++ cell.map .data ++ [.endDelimiter])) ∧
    (s.tailPort.txDriven = true →
      (s.tailTx = .idle → s.sends .tail = .alignmentWords) ∧
      ∀ cell rest, s.tailTx = .sending → s.downQueue = cell :: rest →
        s.sends .tail = .cell ([.startDelimiter] ++ cell.map .data ++ [.endDelimiter]))) ∧
  ∀ (a : Action) (ch : BitVec 6) (buf : Cell), a.rewrite = some ch → 6 ≤ buf.length →
    headerOf (rewritten a buf) = { headerOf buf with channel := ch } ∧
    headerCheckPasses (rewritten a buf) = true ∧ (rewritten a buf).drop 6 = buf.drop 6 ∧
    (rewritten a buf).length = buf.length ∧ ∀ x : Action, x.rewrite = none → rewritten x buf = buf

/-! ### Invariants -/

/-- Every invariant below holds right after reset. -/
def Obligations.ResetMeetsEveryInvariant : Prop := allInvariants State.reset

/-- R94, R112: the 24 buffers are always accounted for, and every upstream cell started is counted once more or
still held. -/
def Obligations.StepKeepsThePoolAndTheUpstreamAccount : Prop :=
  ∀ s t : State, poolBalanced s ∧ upstreamBalanced s → step s = .next t → poolBalanced t ∧ upstreamBalanced t

/-- R31, R32: every reference count equals the number of entries and settings naming its record, only defined
records are named, and an undefined record has its zero fields. -/
def Obligations.StepKeepsEveryReferenceCountExact : Prop :=
  ∀ s t : State, refsExact s ∧ undefinedIsZero s → step s = .next t → refsExact t ∧ undefinedIsZero t

/-- R9, R18: an EMPTY entry has every field 0, and an entry is RETIRING only while the cell in reception holds
it. -/
def Obligations.StepKeepsEntriesClearedAndHeld : Prop :=
  ∀ s t : State, emptyIsCleared s ∧ retiringIsHeld s → step s = .next t → emptyIsCleared t ∧ retiringIsHeld t

/-- R44, R81: every meter's credit lies between 0 and its burst, and the capture numbers in the ring are
consecutive up to the next one. -/
def Obligations.StepKeepsMetersBoundedAndTheRingOrdered : Prop :=
  ∀ s t : State, metersBounded s ∧ ringOrdered s → step s = .next t → metersBounded t ∧ ringOrdered t

/-- R135, R136: the report queue holds at most 16 records, at most 4 of them SENT, with distinct sequences and
distinct waiting subjects, each legal. -/
def Obligations.StepKeepsTheReportQueueLegal : Prop :=
  ∀ s t : State, reportQueueBounded s ∧ reportsLegal s → step s = .next t →
    reportQueueBounded t ∧ reportsLegal t

/-- R108, R126, R157, R160: the reply queue and memory stay bounded, and what the transmitter sends stays at the
head of its queue. -/
def Obligations.StepKeepsRepliesBoundedAndCellsHeld : Prop :=
  ∀ s t : State, repliesBounded s ∧ replyHeld s ∧ dataCellHeld s → step s = .next t →
    repliesBounded t ∧ replyHeld t ∧ dataCellHeld t

/-- R120, R129, R195, R196: an idle transmitter of an UP port never leaves a cell unsent, and the downstream queue
holds at most 4 cells. -/
def Obligations.StepLeavesNoCellUnsent : Prop :=
  ∀ s t : State, grantsMade s ∧ tailStarted s ∧ downstreamBounded s → step s = .next t →
    grantsMade t ∧ tailStarted t ∧ downstreamBounded t

/-- R122, R167, R206: the node address, every setting and the starvation count stay in their ranges. -/
def Obligations.StepKeepsAddressSettingsAndStarvationInRange : Prop :=
  ∀ s t : State, addressLegal s ∧ settingsInRange s ∧ starvationBounded s → step s = .next t →
    addressLegal t ∧ settingsInRange t ∧ starvationBounded t

/-- R182, R185, R186, R210: a port's counts stay in their ranges, its pin is driven exactly while it is UP, and its
transmit pair sends symbols unless RESETN holds the part. R183: a port sends cells only while it is UP. -/
def Obligations.StepKeepsThePortsLegal : Prop :=
  (∀ s t : State, portsLegal s → step s = .next t → portsLegal t) ∧
  ∀ s t : State, sendsCellsWhileUp s → step s = .next t → sendsCellsWhileUp t
end

