-- ==== Sys2Proof/Laws/State.lean ====
section
/-! SUPPORT. The small lemmas of the state's named updates: one per field per update, and what each update
leaves in the field it writes. -/

namespace Sys2Proof.Machine

/-! ### State.count -/

@[simp] theorem State.count_entries (s : State) (c : Counter) : (s.count c).entries = s.entries := rfl
@[simp] theorem State.count_actions (s : State) (c : Counter) : (s.count c).actions = s.actions := rfl
@[simp] theorem State.count_meters (s : State) (c : Counter) : (s.count c).meters = s.meters := rfl
@[simp] theorem State.count_refillLeft (s : State) (c : Counter) : (s.count c).refillLeft = s.refillLeft := rfl
@[simp] theorem State.count_bins (s : State) (c : Counter) : (s.count c).bins = s.bins := rfl
@[simp] theorem State.count_rules (s : State) (c : Counter) : (s.count c).rules = s.rules := rfl
@[simp] theorem State.count_captures (s : State) (c : Counter) : (s.count c).captures = s.captures := rfl
@[simp] theorem State.count_nextCapture (s : State) (c : Counter) : (s.count c).nextCapture = s.nextCapture := rfl
@[simp] theorem State.count_freeBuffers (s : State) (c : Counter) : (s.count c).freeBuffers = s.freeBuffers := rfl
@[simp] theorem State.count_tailRx (s : State) (c : Counter) : (s.count c).tailRx = s.tailRx := rfl
@[simp] theorem State.count_urgent (s : State) (c : Counter) : (s.count c).urgent = s.urgent := rfl
@[simp] theorem State.count_normal (s : State) (c : Counter) : (s.count c).normal = s.normal := rfl
@[simp] theorem State.count_headTx (s : State) (c : Counter) : (s.count c).headTx = s.headTx := rfl
@[simp] theorem State.count_starvation (s : State) (c : Counter) : (s.count c).starvation = s.starvation := rfl
@[simp] theorem State.count_waiting (s : State) (c : Counter) : (s.count c).waiting = s.waiting := rfl
@[simp] theorem State.count_sent (s : State) (c : Counter) : (s.count c).sent = s.sent := rfl
@[simp] theorem State.count_nextSequence (s : State) (c : Counter) : (s.count c).nextSequence = s.nextSequence := rfl
@[simp] theorem State.count_lostSinceSent (s : State) (c : Counter) : (s.count c).lostSinceSent = s.lostSinceSent := rfl
@[simp] theorem State.count_nodeAddress (s : State) (c : Counter) : (s.count c).nodeAddress = s.nodeAddress := rfl
@[simp] theorem State.count_replies (s : State) (c : Counter) : (s.count c).replies = s.replies := rfl
@[simp] theorem State.count_memory (s : State) (c : Counter) : (s.count c).memory = s.memory := rfl
@[simp] theorem State.count_resetPending (s : State) (c : Counter) : (s.count c).resetPending = s.resetPending := rfl
@[simp] theorem State.count_headPort (s : State) (c : Counter) : (s.count c).headPort = s.headPort := rfl
@[simp] theorem State.count_tailPort (s : State) (c : Counter) : (s.count c).tailPort = s.tailPort := rfl
@[simp] theorem State.count_headRx (s : State) (c : Counter) : (s.count c).headRx = s.headRx := rfl
@[simp] theorem State.count_downQueue (s : State) (c : Counter) : (s.count c).downQueue = s.downQueue := rfl
@[simp] theorem State.count_tailTx (s : State) (c : Counter) : (s.count c).tailTx = s.tailTx := rfl
@[simp] theorem State.count_headCut (s : State) (c : Counter) : (s.count c).headCut = s.headCut := rfl
@[simp] theorem State.count_tailCut (s : State) (c : Counter) : (s.count c).tailCut = s.tailCut := rfl
@[simp] theorem State.count_settings (s : State) (c : Counter) : (s.count c).settings = s.settings := rfl
@[simp] theorem State.count_lineTime (s : State) (c : Counter) : (s.count c).lineTime = s.lineTime := rfl
@[simp] theorem State.count_resetHeld (s : State) (c : Counter) : (s.count c).resetHeld = s.resetHeld := rfl
@[simp] theorem State.count_freeIndex (s : State) (c : Counter) : (s.count c).freeIndex = s.freeIndex := rfl
@[simp] theorem State.count_pending (s : State) (c : Counter) : (s.count c).pending = s.pending := rfl

/-! ### State.setEntry -/

@[simp] theorem State.setEntry_actions (s : State) (i : Fin 64) (e : Entry) : (s.setEntry i e).actions = s.actions := rfl
@[simp] theorem State.setEntry_meters (s : State) (i : Fin 64) (e : Entry) : (s.setEntry i e).meters = s.meters := rfl
@[simp] theorem State.setEntry_refillLeft (s : State) (i : Fin 64) (e : Entry) : (s.setEntry i e).refillLeft = s.refillLeft := rfl
@[simp] theorem State.setEntry_bins (s : State) (i : Fin 64) (e : Entry) : (s.setEntry i e).bins = s.bins := rfl
@[simp] theorem State.setEntry_rules (s : State) (i : Fin 64) (e : Entry) : (s.setEntry i e).rules = s.rules := rfl
@[simp] theorem State.setEntry_captures (s : State) (i : Fin 64) (e : Entry) : (s.setEntry i e).captures = s.captures := rfl
@[simp] theorem State.setEntry_nextCapture (s : State) (i : Fin 64) (e : Entry) : (s.setEntry i e).nextCapture = s.nextCapture := rfl
@[simp] theorem State.setEntry_freeBuffers (s : State) (i : Fin 64) (e : Entry) : (s.setEntry i e).freeBuffers = s.freeBuffers := rfl
@[simp] theorem State.setEntry_tailRx (s : State) (i : Fin 64) (e : Entry) : (s.setEntry i e).tailRx = s.tailRx := rfl
@[simp] theorem State.setEntry_urgent (s : State) (i : Fin 64) (e : Entry) : (s.setEntry i e).urgent = s.urgent := rfl
@[simp] theorem State.setEntry_normal (s : State) (i : Fin 64) (e : Entry) : (s.setEntry i e).normal = s.normal := rfl
@[simp] theorem State.setEntry_headTx (s : State) (i : Fin 64) (e : Entry) : (s.setEntry i e).headTx = s.headTx := rfl
@[simp] theorem State.setEntry_starvation (s : State) (i : Fin 64) (e : Entry) : (s.setEntry i e).starvation = s.starvation := rfl
@[simp] theorem State.setEntry_waiting (s : State) (i : Fin 64) (e : Entry) : (s.setEntry i e).waiting = s.waiting := rfl
@[simp] theorem State.setEntry_sent (s : State) (i : Fin 64) (e : Entry) : (s.setEntry i e).sent = s.sent := rfl
@[simp] theorem State.setEntry_nextSequence (s : State) (i : Fin 64) (e : Entry) : (s.setEntry i e).nextSequence = s.nextSequence := rfl
@[simp] theorem State.setEntry_lostSinceSent (s : State) (i : Fin 64) (e : Entry) : (s.setEntry i e).lostSinceSent = s.lostSinceSent := rfl
@[simp] theorem State.setEntry_nodeAddress (s : State) (i : Fin 64) (e : Entry) : (s.setEntry i e).nodeAddress = s.nodeAddress := rfl
@[simp] theorem State.setEntry_replies (s : State) (i : Fin 64) (e : Entry) : (s.setEntry i e).replies = s.replies := rfl
@[simp] theorem State.setEntry_memory (s : State) (i : Fin 64) (e : Entry) : (s.setEntry i e).memory = s.memory := rfl
@[simp] theorem State.setEntry_resetPending (s : State) (i : Fin 64) (e : Entry) : (s.setEntry i e).resetPending = s.resetPending := rfl
@[simp] theorem State.setEntry_headPort (s : State) (i : Fin 64) (e : Entry) : (s.setEntry i e).headPort = s.headPort := rfl
@[simp] theorem State.setEntry_tailPort (s : State) (i : Fin 64) (e : Entry) : (s.setEntry i e).tailPort = s.tailPort := rfl
@[simp] theorem State.setEntry_headRx (s : State) (i : Fin 64) (e : Entry) : (s.setEntry i e).headRx = s.headRx := rfl
@[simp] theorem State.setEntry_downQueue (s : State) (i : Fin 64) (e : Entry) : (s.setEntry i e).downQueue = s.downQueue := rfl
@[simp] theorem State.setEntry_tailTx (s : State) (i : Fin 64) (e : Entry) : (s.setEntry i e).tailTx = s.tailTx := rfl
@[simp] theorem State.setEntry_headCut (s : State) (i : Fin 64) (e : Entry) : (s.setEntry i e).headCut = s.headCut := rfl
@[simp] theorem State.setEntry_tailCut (s : State) (i : Fin 64) (e : Entry) : (s.setEntry i e).tailCut = s.tailCut := rfl
@[simp] theorem State.setEntry_stats (s : State) (i : Fin 64) (e : Entry) : (s.setEntry i e).stats = s.stats := rfl
@[simp] theorem State.setEntry_settings (s : State) (i : Fin 64) (e : Entry) : (s.setEntry i e).settings = s.settings := rfl
@[simp] theorem State.setEntry_lineTime (s : State) (i : Fin 64) (e : Entry) : (s.setEntry i e).lineTime = s.lineTime := rfl
@[simp] theorem State.setEntry_resetHeld (s : State) (i : Fin 64) (e : Entry) : (s.setEntry i e).resetHeld = s.resetHeld := rfl
@[simp] theorem State.setEntry_freeIndex (s : State) (i : Fin 64) (e : Entry) : (s.setEntry i e).freeIndex = s.freeIndex := rfl
@[simp] theorem State.setEntry_pending (s : State) (i : Fin 64) (e : Entry) : (s.setEntry i e).pending = s.pending := rfl

/-! ### State.setRecord -/

@[simp] theorem State.setRecord_entries (s : State) (a : Fin 32) (r : ActionRecord) : (s.setRecord a r).entries = s.entries := rfl
@[simp] theorem State.setRecord_meters (s : State) (a : Fin 32) (r : ActionRecord) : (s.setRecord a r).meters = s.meters := rfl
@[simp] theorem State.setRecord_refillLeft (s : State) (a : Fin 32) (r : ActionRecord) : (s.setRecord a r).refillLeft = s.refillLeft := rfl
@[simp] theorem State.setRecord_bins (s : State) (a : Fin 32) (r : ActionRecord) : (s.setRecord a r).bins = s.bins := rfl
@[simp] theorem State.setRecord_rules (s : State) (a : Fin 32) (r : ActionRecord) : (s.setRecord a r).rules = s.rules := rfl
@[simp] theorem State.setRecord_captures (s : State) (a : Fin 32) (r : ActionRecord) : (s.setRecord a r).captures = s.captures := rfl
@[simp] theorem State.setRecord_nextCapture (s : State) (a : Fin 32) (r : ActionRecord) : (s.setRecord a r).nextCapture = s.nextCapture := rfl
@[simp] theorem State.setRecord_freeBuffers (s : State) (a : Fin 32) (r : ActionRecord) : (s.setRecord a r).freeBuffers = s.freeBuffers := rfl
@[simp] theorem State.setRecord_tailRx (s : State) (a : Fin 32) (r : ActionRecord) : (s.setRecord a r).tailRx = s.tailRx := rfl
@[simp] theorem State.setRecord_urgent (s : State) (a : Fin 32) (r : ActionRecord) : (s.setRecord a r).urgent = s.urgent := rfl
@[simp] theorem State.setRecord_normal (s : State) (a : Fin 32) (r : ActionRecord) : (s.setRecord a r).normal = s.normal := rfl
@[simp] theorem State.setRecord_headTx (s : State) (a : Fin 32) (r : ActionRecord) : (s.setRecord a r).headTx = s.headTx := rfl
@[simp] theorem State.setRecord_starvation (s : State) (a : Fin 32) (r : ActionRecord) : (s.setRecord a r).starvation = s.starvation := rfl
@[simp] theorem State.setRecord_waiting (s : State) (a : Fin 32) (r : ActionRecord) : (s.setRecord a r).waiting = s.waiting := rfl
@[simp] theorem State.setRecord_sent (s : State) (a : Fin 32) (r : ActionRecord) : (s.setRecord a r).sent = s.sent := rfl
@[simp] theorem State.setRecord_nextSequence (s : State) (a : Fin 32) (r : ActionRecord) : (s.setRecord a r).nextSequence = s.nextSequence := rfl
@[simp] theorem State.setRecord_lostSinceSent (s : State) (a : Fin 32) (r : ActionRecord) : (s.setRecord a r).lostSinceSent = s.lostSinceSent := rfl
@[simp] theorem State.setRecord_nodeAddress (s : State) (a : Fin 32) (r : ActionRecord) : (s.setRecord a r).nodeAddress = s.nodeAddress := rfl
@[simp] theorem State.setRecord_replies (s : State) (a : Fin 32) (r : ActionRecord) : (s.setRecord a r).replies = s.replies := rfl
@[simp] theorem State.setRecord_memory (s : State) (a : Fin 32) (r : ActionRecord) : (s.setRecord a r).memory = s.memory := rfl
@[simp] theorem State.setRecord_resetPending (s : State) (a : Fin 32) (r : ActionRecord) : (s.setRecord a r).resetPending = s.resetPending := rfl
@[simp] theorem State.setRecord_headPort (s : State) (a : Fin 32) (r : ActionRecord) : (s.setRecord a r).headPort = s.headPort := rfl
@[simp] theorem State.setRecord_tailPort (s : State) (a : Fin 32) (r : ActionRecord) : (s.setRecord a r).tailPort = s.tailPort := rfl
@[simp] theorem State.setRecord_headRx (s : State) (a : Fin 32) (r : ActionRecord) : (s.setRecord a r).headRx = s.headRx := rfl
@[simp] theorem State.setRecord_downQueue (s : State) (a : Fin 32) (r : ActionRecord) : (s.setRecord a r).downQueue = s.downQueue := rfl
@[simp] theorem State.setRecord_tailTx (s : State) (a : Fin 32) (r : ActionRecord) : (s.setRecord a r).tailTx = s.tailTx := rfl
@[simp] theorem State.setRecord_headCut (s : State) (a : Fin 32) (r : ActionRecord) : (s.setRecord a r).headCut = s.headCut := rfl
@[simp] theorem State.setRecord_tailCut (s : State) (a : Fin 32) (r : ActionRecord) : (s.setRecord a r).tailCut = s.tailCut := rfl
@[simp] theorem State.setRecord_stats (s : State) (a : Fin 32) (r : ActionRecord) : (s.setRecord a r).stats = s.stats := rfl
@[simp] theorem State.setRecord_settings (s : State) (a : Fin 32) (r : ActionRecord) : (s.setRecord a r).settings = s.settings := rfl
@[simp] theorem State.setRecord_lineTime (s : State) (a : Fin 32) (r : ActionRecord) : (s.setRecord a r).lineTime = s.lineTime := rfl
@[simp] theorem State.setRecord_resetHeld (s : State) (a : Fin 32) (r : ActionRecord) : (s.setRecord a r).resetHeld = s.resetHeld := rfl
@[simp] theorem State.setRecord_freeIndex (s : State) (a : Fin 32) (r : ActionRecord) : (s.setRecord a r).freeIndex = s.freeIndex := rfl
@[simp] theorem State.setRecord_pending (s : State) (a : Fin 32) (r : ActionRecord) : (s.setRecord a r).pending = s.pending := rfl

/-! ### State.setMeter -/

@[simp] theorem State.setMeter_entries (s : State) (m : Fin 16) (x : Meter) : (s.setMeter m x).entries = s.entries := rfl
@[simp] theorem State.setMeter_actions (s : State) (m : Fin 16) (x : Meter) : (s.setMeter m x).actions = s.actions := rfl
@[simp] theorem State.setMeter_refillLeft (s : State) (m : Fin 16) (x : Meter) : (s.setMeter m x).refillLeft = s.refillLeft := rfl
@[simp] theorem State.setMeter_bins (s : State) (m : Fin 16) (x : Meter) : (s.setMeter m x).bins = s.bins := rfl
@[simp] theorem State.setMeter_rules (s : State) (m : Fin 16) (x : Meter) : (s.setMeter m x).rules = s.rules := rfl
@[simp] theorem State.setMeter_captures (s : State) (m : Fin 16) (x : Meter) : (s.setMeter m x).captures = s.captures := rfl
@[simp] theorem State.setMeter_nextCapture (s : State) (m : Fin 16) (x : Meter) : (s.setMeter m x).nextCapture = s.nextCapture := rfl
@[simp] theorem State.setMeter_freeBuffers (s : State) (m : Fin 16) (x : Meter) : (s.setMeter m x).freeBuffers = s.freeBuffers := rfl
@[simp] theorem State.setMeter_tailRx (s : State) (m : Fin 16) (x : Meter) : (s.setMeter m x).tailRx = s.tailRx := rfl
@[simp] theorem State.setMeter_urgent (s : State) (m : Fin 16) (x : Meter) : (s.setMeter m x).urgent = s.urgent := rfl
@[simp] theorem State.setMeter_normal (s : State) (m : Fin 16) (x : Meter) : (s.setMeter m x).normal = s.normal := rfl
@[simp] theorem State.setMeter_headTx (s : State) (m : Fin 16) (x : Meter) : (s.setMeter m x).headTx = s.headTx := rfl
@[simp] theorem State.setMeter_starvation (s : State) (m : Fin 16) (x : Meter) : (s.setMeter m x).starvation = s.starvation := rfl
@[simp] theorem State.setMeter_waiting (s : State) (m : Fin 16) (x : Meter) : (s.setMeter m x).waiting = s.waiting := rfl
@[simp] theorem State.setMeter_sent (s : State) (m : Fin 16) (x : Meter) : (s.setMeter m x).sent = s.sent := rfl
@[simp] theorem State.setMeter_nextSequence (s : State) (m : Fin 16) (x : Meter) : (s.setMeter m x).nextSequence = s.nextSequence := rfl
@[simp] theorem State.setMeter_lostSinceSent (s : State) (m : Fin 16) (x : Meter) : (s.setMeter m x).lostSinceSent = s.lostSinceSent := rfl
@[simp] theorem State.setMeter_nodeAddress (s : State) (m : Fin 16) (x : Meter) : (s.setMeter m x).nodeAddress = s.nodeAddress := rfl
@[simp] theorem State.setMeter_replies (s : State) (m : Fin 16) (x : Meter) : (s.setMeter m x).replies = s.replies := rfl
@[simp] theorem State.setMeter_memory (s : State) (m : Fin 16) (x : Meter) : (s.setMeter m x).memory = s.memory := rfl
@[simp] theorem State.setMeter_resetPending (s : State) (m : Fin 16) (x : Meter) : (s.setMeter m x).resetPending = s.resetPending := rfl
@[simp] theorem State.setMeter_headPort (s : State) (m : Fin 16) (x : Meter) : (s.setMeter m x).headPort = s.headPort := rfl
@[simp] theorem State.setMeter_tailPort (s : State) (m : Fin 16) (x : Meter) : (s.setMeter m x).tailPort = s.tailPort := rfl
@[simp] theorem State.setMeter_headRx (s : State) (m : Fin 16) (x : Meter) : (s.setMeter m x).headRx = s.headRx := rfl
@[simp] theorem State.setMeter_downQueue (s : State) (m : Fin 16) (x : Meter) : (s.setMeter m x).downQueue = s.downQueue := rfl
@[simp] theorem State.setMeter_tailTx (s : State) (m : Fin 16) (x : Meter) : (s.setMeter m x).tailTx = s.tailTx := rfl
@[simp] theorem State.setMeter_headCut (s : State) (m : Fin 16) (x : Meter) : (s.setMeter m x).headCut = s.headCut := rfl
@[simp] theorem State.setMeter_tailCut (s : State) (m : Fin 16) (x : Meter) : (s.setMeter m x).tailCut = s.tailCut := rfl
@[simp] theorem State.setMeter_stats (s : State) (m : Fin 16) (x : Meter) : (s.setMeter m x).stats = s.stats := rfl
@[simp] theorem State.setMeter_settings (s : State) (m : Fin 16) (x : Meter) : (s.setMeter m x).settings = s.settings := rfl
@[simp] theorem State.setMeter_lineTime (s : State) (m : Fin 16) (x : Meter) : (s.setMeter m x).lineTime = s.lineTime := rfl
@[simp] theorem State.setMeter_resetHeld (s : State) (m : Fin 16) (x : Meter) : (s.setMeter m x).resetHeld = s.resetHeld := rfl
@[simp] theorem State.setMeter_freeIndex (s : State) (m : Fin 16) (x : Meter) : (s.setMeter m x).freeIndex = s.freeIndex := rfl
@[simp] theorem State.setMeter_pending (s : State) (m : Fin 16) (x : Meter) : (s.setMeter m x).pending = s.pending := rfl

/-! ### State.setRule -/

@[simp] theorem State.setRule_entries (s : State) (n : Fin 8) (r : BinRule) : (s.setRule n r).entries = s.entries := rfl
@[simp] theorem State.setRule_actions (s : State) (n : Fin 8) (r : BinRule) : (s.setRule n r).actions = s.actions := rfl
@[simp] theorem State.setRule_meters (s : State) (n : Fin 8) (r : BinRule) : (s.setRule n r).meters = s.meters := rfl
@[simp] theorem State.setRule_refillLeft (s : State) (n : Fin 8) (r : BinRule) : (s.setRule n r).refillLeft = s.refillLeft := rfl
@[simp] theorem State.setRule_bins (s : State) (n : Fin 8) (r : BinRule) : (s.setRule n r).bins = s.bins := rfl
@[simp] theorem State.setRule_captures (s : State) (n : Fin 8) (r : BinRule) : (s.setRule n r).captures = s.captures := rfl
@[simp] theorem State.setRule_nextCapture (s : State) (n : Fin 8) (r : BinRule) : (s.setRule n r).nextCapture = s.nextCapture := rfl
@[simp] theorem State.setRule_freeBuffers (s : State) (n : Fin 8) (r : BinRule) : (s.setRule n r).freeBuffers = s.freeBuffers := rfl
@[simp] theorem State.setRule_tailRx (s : State) (n : Fin 8) (r : BinRule) : (s.setRule n r).tailRx = s.tailRx := rfl
@[simp] theorem State.setRule_urgent (s : State) (n : Fin 8) (r : BinRule) : (s.setRule n r).urgent = s.urgent := rfl
@[simp] theorem State.setRule_normal (s : State) (n : Fin 8) (r : BinRule) : (s.setRule n r).normal = s.normal := rfl
@[simp] theorem State.setRule_headTx (s : State) (n : Fin 8) (r : BinRule) : (s.setRule n r).headTx = s.headTx := rfl
@[simp] theorem State.setRule_starvation (s : State) (n : Fin 8) (r : BinRule) : (s.setRule n r).starvation = s.starvation := rfl
@[simp] theorem State.setRule_waiting (s : State) (n : Fin 8) (r : BinRule) : (s.setRule n r).waiting = s.waiting := rfl
@[simp] theorem State.setRule_sent (s : State) (n : Fin 8) (r : BinRule) : (s.setRule n r).sent = s.sent := rfl
@[simp] theorem State.setRule_nextSequence (s : State) (n : Fin 8) (r : BinRule) : (s.setRule n r).nextSequence = s.nextSequence := rfl
@[simp] theorem State.setRule_lostSinceSent (s : State) (n : Fin 8) (r : BinRule) : (s.setRule n r).lostSinceSent = s.lostSinceSent := rfl
@[simp] theorem State.setRule_nodeAddress (s : State) (n : Fin 8) (r : BinRule) : (s.setRule n r).nodeAddress = s.nodeAddress := rfl
@[simp] theorem State.setRule_replies (s : State) (n : Fin 8) (r : BinRule) : (s.setRule n r).replies = s.replies := rfl
@[simp] theorem State.setRule_memory (s : State) (n : Fin 8) (r : BinRule) : (s.setRule n r).memory = s.memory := rfl
@[simp] theorem State.setRule_resetPending (s : State) (n : Fin 8) (r : BinRule) : (s.setRule n r).resetPending = s.resetPending := rfl
@[simp] theorem State.setRule_headPort (s : State) (n : Fin 8) (r : BinRule) : (s.setRule n r).headPort = s.headPort := rfl
@[simp] theorem State.setRule_tailPort (s : State) (n : Fin 8) (r : BinRule) : (s.setRule n r).tailPort = s.tailPort := rfl
@[simp] theorem State.setRule_headRx (s : State) (n : Fin 8) (r : BinRule) : (s.setRule n r).headRx = s.headRx := rfl
@[simp] theorem State.setRule_downQueue (s : State) (n : Fin 8) (r : BinRule) : (s.setRule n r).downQueue = s.downQueue := rfl
@[simp] theorem State.setRule_tailTx (s : State) (n : Fin 8) (r : BinRule) : (s.setRule n r).tailTx = s.tailTx := rfl
@[simp] theorem State.setRule_headCut (s : State) (n : Fin 8) (r : BinRule) : (s.setRule n r).headCut = s.headCut := rfl
@[simp] theorem State.setRule_tailCut (s : State) (n : Fin 8) (r : BinRule) : (s.setRule n r).tailCut = s.tailCut := rfl
@[simp] theorem State.setRule_stats (s : State) (n : Fin 8) (r : BinRule) : (s.setRule n r).stats = s.stats := rfl
@[simp] theorem State.setRule_settings (s : State) (n : Fin 8) (r : BinRule) : (s.setRule n r).settings = s.settings := rfl
@[simp] theorem State.setRule_lineTime (s : State) (n : Fin 8) (r : BinRule) : (s.setRule n r).lineTime = s.lineTime := rfl
@[simp] theorem State.setRule_resetHeld (s : State) (n : Fin 8) (r : BinRule) : (s.setRule n r).resetHeld = s.resetHeld := rfl
@[simp] theorem State.setRule_freeIndex (s : State) (n : Fin 8) (r : BinRule) : (s.setRule n r).freeIndex = s.freeIndex := rfl
@[simp] theorem State.setRule_pending (s : State) (n : Fin 8) (r : BinRule) : (s.setRule n r).pending = s.pending := rfl

/-! ### State.setBin -/

@[simp] theorem State.setBin_entries (s : State) (b : Nat) (w : Word32) : (s.setBin b w).entries = s.entries := rfl
@[simp] theorem State.setBin_actions (s : State) (b : Nat) (w : Word32) : (s.setBin b w).actions = s.actions := rfl
@[simp] theorem State.setBin_meters (s : State) (b : Nat) (w : Word32) : (s.setBin b w).meters = s.meters := rfl
@[simp] theorem State.setBin_refillLeft (s : State) (b : Nat) (w : Word32) : (s.setBin b w).refillLeft = s.refillLeft := rfl
@[simp] theorem State.setBin_rules (s : State) (b : Nat) (w : Word32) : (s.setBin b w).rules = s.rules := rfl
@[simp] theorem State.setBin_captures (s : State) (b : Nat) (w : Word32) : (s.setBin b w).captures = s.captures := rfl
@[simp] theorem State.setBin_nextCapture (s : State) (b : Nat) (w : Word32) : (s.setBin b w).nextCapture = s.nextCapture := rfl
@[simp] theorem State.setBin_freeBuffers (s : State) (b : Nat) (w : Word32) : (s.setBin b w).freeBuffers = s.freeBuffers := rfl
@[simp] theorem State.setBin_tailRx (s : State) (b : Nat) (w : Word32) : (s.setBin b w).tailRx = s.tailRx := rfl
@[simp] theorem State.setBin_urgent (s : State) (b : Nat) (w : Word32) : (s.setBin b w).urgent = s.urgent := rfl
@[simp] theorem State.setBin_normal (s : State) (b : Nat) (w : Word32) : (s.setBin b w).normal = s.normal := rfl
@[simp] theorem State.setBin_headTx (s : State) (b : Nat) (w : Word32) : (s.setBin b w).headTx = s.headTx := rfl
@[simp] theorem State.setBin_starvation (s : State) (b : Nat) (w : Word32) : (s.setBin b w).starvation = s.starvation := rfl
@[simp] theorem State.setBin_waiting (s : State) (b : Nat) (w : Word32) : (s.setBin b w).waiting = s.waiting := rfl
@[simp] theorem State.setBin_sent (s : State) (b : Nat) (w : Word32) : (s.setBin b w).sent = s.sent := rfl
@[simp] theorem State.setBin_nextSequence (s : State) (b : Nat) (w : Word32) : (s.setBin b w).nextSequence = s.nextSequence := rfl
@[simp] theorem State.setBin_lostSinceSent (s : State) (b : Nat) (w : Word32) : (s.setBin b w).lostSinceSent = s.lostSinceSent := rfl
@[simp] theorem State.setBin_nodeAddress (s : State) (b : Nat) (w : Word32) : (s.setBin b w).nodeAddress = s.nodeAddress := rfl
@[simp] theorem State.setBin_replies (s : State) (b : Nat) (w : Word32) : (s.setBin b w).replies = s.replies := rfl
@[simp] theorem State.setBin_memory (s : State) (b : Nat) (w : Word32) : (s.setBin b w).memory = s.memory := rfl
@[simp] theorem State.setBin_resetPending (s : State) (b : Nat) (w : Word32) : (s.setBin b w).resetPending = s.resetPending := rfl
@[simp] theorem State.setBin_headPort (s : State) (b : Nat) (w : Word32) : (s.setBin b w).headPort = s.headPort := rfl
@[simp] theorem State.setBin_tailPort (s : State) (b : Nat) (w : Word32) : (s.setBin b w).tailPort = s.tailPort := rfl
@[simp] theorem State.setBin_headRx (s : State) (b : Nat) (w : Word32) : (s.setBin b w).headRx = s.headRx := rfl
@[simp] theorem State.setBin_downQueue (s : State) (b : Nat) (w : Word32) : (s.setBin b w).downQueue = s.downQueue := rfl
@[simp] theorem State.setBin_tailTx (s : State) (b : Nat) (w : Word32) : (s.setBin b w).tailTx = s.tailTx := rfl
@[simp] theorem State.setBin_headCut (s : State) (b : Nat) (w : Word32) : (s.setBin b w).headCut = s.headCut := rfl
@[simp] theorem State.setBin_tailCut (s : State) (b : Nat) (w : Word32) : (s.setBin b w).tailCut = s.tailCut := rfl
@[simp] theorem State.setBin_stats (s : State) (b : Nat) (w : Word32) : (s.setBin b w).stats = s.stats := rfl
@[simp] theorem State.setBin_settings (s : State) (b : Nat) (w : Word32) : (s.setBin b w).settings = s.settings := rfl
@[simp] theorem State.setBin_lineTime (s : State) (b : Nat) (w : Word32) : (s.setBin b w).lineTime = s.lineTime := rfl
@[simp] theorem State.setBin_resetHeld (s : State) (b : Nat) (w : Word32) : (s.setBin b w).resetHeld = s.resetHeld := rfl
@[simp] theorem State.setBin_freeIndex (s : State) (b : Nat) (w : Word32) : (s.setBin b w).freeIndex = s.freeIndex := rfl
@[simp] theorem State.setBin_pending (s : State) (b : Nat) (w : Word32) : (s.setBin b w).pending = s.pending := rfl

/-! ### State.setPort -/

@[simp] theorem State.setPort_entries (s : State) (p : Side) (x : Port) : (s.setPort p x).entries = s.entries := by
  cases p <;> rfl
@[simp] theorem State.setPort_actions (s : State) (p : Side) (x : Port) : (s.setPort p x).actions = s.actions := by
  cases p <;> rfl
@[simp] theorem State.setPort_meters (s : State) (p : Side) (x : Port) : (s.setPort p x).meters = s.meters := by
  cases p <;> rfl
@[simp] theorem State.setPort_refillLeft (s : State) (p : Side) (x : Port) : (s.setPort p x).refillLeft = s.refillLeft := by
  cases p <;> rfl
@[simp] theorem State.setPort_bins (s : State) (p : Side) (x : Port) : (s.setPort p x).bins = s.bins := by
  cases p <;> rfl
@[simp] theorem State.setPort_rules (s : State) (p : Side) (x : Port) : (s.setPort p x).rules = s.rules := by
  cases p <;> rfl
@[simp] theorem State.setPort_captures (s : State) (p : Side) (x : Port) : (s.setPort p x).captures = s.captures := by
  cases p <;> rfl
@[simp] theorem State.setPort_nextCapture (s : State) (p : Side) (x : Port) : (s.setPort p x).nextCapture = s.nextCapture := by
  cases p <;> rfl
@[simp] theorem State.setPort_freeBuffers (s : State) (p : Side) (x : Port) : (s.setPort p x).freeBuffers = s.freeBuffers := by
  cases p <;> rfl
@[simp] theorem State.setPort_tailRx (s : State) (p : Side) (x : Port) : (s.setPort p x).tailRx = s.tailRx := by
  cases p <;> rfl
@[simp] theorem State.setPort_urgent (s : State) (p : Side) (x : Port) : (s.setPort p x).urgent = s.urgent := by
  cases p <;> rfl
@[simp] theorem State.setPort_normal (s : State) (p : Side) (x : Port) : (s.setPort p x).normal = s.normal := by
  cases p <;> rfl
@[simp] theorem State.setPort_headTx (s : State) (p : Side) (x : Port) : (s.setPort p x).headTx = s.headTx := by
  cases p <;> rfl
@[simp] theorem State.setPort_starvation (s : State) (p : Side) (x : Port) : (s.setPort p x).starvation = s.starvation := by
  cases p <;> rfl
@[simp] theorem State.setPort_waiting (s : State) (p : Side) (x : Port) : (s.setPort p x).waiting = s.waiting := by
  cases p <;> rfl
@[simp] theorem State.setPort_sent (s : State) (p : Side) (x : Port) : (s.setPort p x).sent = s.sent := by
  cases p <;> rfl
@[simp] theorem State.setPort_nextSequence (s : State) (p : Side) (x : Port) : (s.setPort p x).nextSequence = s.nextSequence := by
  cases p <;> rfl
@[simp] theorem State.setPort_lostSinceSent (s : State) (p : Side) (x : Port) : (s.setPort p x).lostSinceSent = s.lostSinceSent := by
  cases p <;> rfl
@[simp] theorem State.setPort_nodeAddress (s : State) (p : Side) (x : Port) : (s.setPort p x).nodeAddress = s.nodeAddress := by
  cases p <;> rfl
@[simp] theorem State.setPort_replies (s : State) (p : Side) (x : Port) : (s.setPort p x).replies = s.replies := by
  cases p <;> rfl
@[simp] theorem State.setPort_memory (s : State) (p : Side) (x : Port) : (s.setPort p x).memory = s.memory := by
  cases p <;> rfl
@[simp] theorem State.setPort_resetPending (s : State) (p : Side) (x : Port) : (s.setPort p x).resetPending = s.resetPending := by
  cases p <;> rfl
@[simp] theorem State.setPort_headRx (s : State) (p : Side) (x : Port) : (s.setPort p x).headRx = s.headRx := by
  cases p <;> rfl
@[simp] theorem State.setPort_downQueue (s : State) (p : Side) (x : Port) : (s.setPort p x).downQueue = s.downQueue := by
  cases p <;> rfl
@[simp] theorem State.setPort_tailTx (s : State) (p : Side) (x : Port) : (s.setPort p x).tailTx = s.tailTx := by
  cases p <;> rfl
@[simp] theorem State.setPort_headCut (s : State) (p : Side) (x : Port) : (s.setPort p x).headCut = s.headCut := by
  cases p <;> rfl
@[simp] theorem State.setPort_tailCut (s : State) (p : Side) (x : Port) : (s.setPort p x).tailCut = s.tailCut := by
  cases p <;> rfl
@[simp] theorem State.setPort_stats (s : State) (p : Side) (x : Port) : (s.setPort p x).stats = s.stats := by
  cases p <;> rfl
@[simp] theorem State.setPort_settings (s : State) (p : Side) (x : Port) : (s.setPort p x).settings = s.settings := by
  cases p <;> rfl
@[simp] theorem State.setPort_lineTime (s : State) (p : Side) (x : Port) : (s.setPort p x).lineTime = s.lineTime := by
  cases p <;> rfl
@[simp] theorem State.setPort_resetHeld (s : State) (p : Side) (x : Port) : (s.setPort p x).resetHeld = s.resetHeld := by
  cases p <;> rfl
@[simp] theorem State.setPort_freeIndex (s : State) (p : Side) (x : Port) : (s.setPort p x).freeIndex = s.freeIndex := by
  cases p <;> rfl
@[simp] theorem State.setPort_pending (s : State) (p : Side) (x : Port) : (s.setPort p x).pending = s.pending := by
  cases p <;> rfl

/-! ### What each update writes -/

@[simp] theorem State.count_stats (s : State) (c : Counter) : (s.count c).stats = s.stats.raise c := rfl

@[simp] theorem State.setEntry_entries (s : State) (i : Fin 64) (e : Entry) :
    (s.setEntry i e).entries = s.entries.set i.val e i.isLt := rfl

theorem State.setEntry_at (s : State) (i j : Fin 64) (e : Entry) :
    (s.setEntry i e).entries[j] = if i = j then e else s.entries[j] := by
  simp [State.setEntry, Vector.getElem_set, Fin.ext_iff]

@[simp] theorem State.setRecord_actions (s : State) (a : Fin 32) (r : ActionRecord) :
    (s.setRecord a r).actions = s.actions.set a.val r a.isLt := rfl

theorem State.setRecord_at (s : State) (a b : Fin 32) (r : ActionRecord) :
    (s.setRecord a r).actions[b] = if a = b then r else s.actions[b] := by
  simp [State.setRecord, Vector.getElem_set, Fin.ext_iff]

@[simp] theorem State.setMeter_meters (s : State) (m : Fin 16) (x : Meter) :
    (s.setMeter m x).meters = s.meters.set m.val x m.isLt := rfl

theorem State.setMeter_at (s : State) (m n : Fin 16) (x : Meter) :
    (s.setMeter m x).meters[n] = if m = n then x else s.meters[n] := by
  simp [State.setMeter, Vector.getElem_set, Fin.ext_iff]

@[simp] theorem State.setRule_rules (s : State) (n : Fin 8) (r : BinRule) :
    (s.setRule n r).rules = s.rules.set n.val r n.isLt := rfl

theorem State.setRule_at (s : State) (n k : Fin 8) (r : BinRule) :
    (s.setRule n r).rules[k] = if n = k then r else s.rules[k] := by
  simp [State.setRule, Vector.getElem_set, Fin.ext_iff]

@[simp] theorem State.bin_setBin (s : State) (b c : Nat) (w : Word32) :
    (s.setBin b w).bin c = if b = c ∧ b < 1024 then w else s.bin c := by
  unfold State.setBin State.bin
  rw [Vector.getElem?_setIfInBounds]
  by_cases h : b = c
  · subst h; by_cases hb : b < 1024 <;> simp [hb]
  · simp [h]

@[simp] theorem State.port_setPort_same (s : State) (p : Side) (x : Port) : (s.setPort p x).port p = x := by
  cases p <;> rfl

theorem State.port_setPort (s : State) (p q : Side) (x : Port) :
    (s.setPort p x).port q = if p = q then x else s.port q := by
  cases p <;> cases q <;> rfl

/-- A raised counter rises by 1, and no other moves (R200). -/
theorem Stats.value_raise (t : Stats) (c d : Counter) :
    (t.raise c).value d = if c = d then t.value d + 1 else t.value d := by
  cases c <;> cases d <;> rfl

/-- No event raises carried (R200). -/
@[simp] theorem Stats.raise_carried (t : Stats) (c : Counter) : (t.raise c).carried = t.carried := by
  cases c <;> rfl

end Sys2Proof.Machine
end

