-- ==== Sys2Proof/Laws/Frames.lean ====
section
/-! SUPPORT. What each shared operation can reach: one equation per operation, the state with only these fields
changed. A proof rewrites with it instead of unfolding the operation. -/

namespace Sys2Proof.Machine

/-- An occurrence reaches the report queue and its counters alone (R137). -/
theorem occur_frame (k : ReportKind) (n : Nat) (s : State) :
    ∃ x0 x1 x2,
      occur k n s = { s with waiting := x0, lostSinceSent := x1, stats := x2 } := by
  unfold occur
  repeat' split
  all_goals exact ⟨_, _, _, rfl⟩

/-- A reference reaches the action table alone (R33). -/
theorem addRef_frame (a : Fin 32) (s : State) :
    ∃ x0,
      addRef a s = { s with actions := x0 } := by
  exact ⟨_, rfl⟩

/-- A dropped reference reaches the action table alone (R33). -/
theorem dropRef_frame (a : Fin 32) (s : State) :
    ∃ x0,
      dropRef a s = { s with actions := x0 } := by
  exact ⟨_, rfl⟩

/-- An entry that enters EMPTY reaches the match and action tables alone (R8, R9). -/
theorem emptyEntry_frame (i : Fin 64) (s : State) :
    ∃ x0 x1,
      emptyEntry i s = { s with entries := x0, actions := x1 } := by
  unfold emptyEntry
  repeat' split
  all_goals exact ⟨_, _, rfl⟩

/-- The release of the held entry reaches the match and action tables alone (R12). -/
theorem releaseHeld_frame (s : State) :
    ∃ x0 x1,
      releaseHeld s = { s with entries := x0, actions := x1 } := by
  unfold releaseHeld
  split
  · rename_i i _
    obtain ⟨_, _, h⟩ := emptyEntry_frame i s
    split
    · rw [h]; exact ⟨_, _, rfl⟩
    · exact ⟨_, _, rfl⟩
  · exact ⟨_, _, rfl⟩

/-- Retirement reaches the match and action tables alone (R18). -/
theorem retireEntry_frame (i : Fin 64) (s : State) :
    ∃ x0 x1,
      retireEntry i s = { s with entries := x0, actions := x1 } := by
  obtain ⟨_, _, h⟩ := emptyEntry_frame i s
  unfold retireEntry
  rw [h]
  repeat' split
  all_goals exact ⟨_, _, rfl⟩

/-- A discard reaches the match and action tables alone (R21). -/
theorem discardIfIn_frame (b : Fin 8) (i : Fin 64) (s : State) :
    ∃ x0 x1,
      discardIfIn b i s = { s with entries := x0, actions := x1 } := by
  obtain ⟨_, _, h⟩ := emptyEntry_frame i s
  unfold discardIfIn
  rw [h]
  repeat' split
  all_goals exact ⟨_, _, rfl⟩

/-- BATCH_RETIRE at one position reaches the match and action tables alone (R20). -/
theorem retireIfIn_frame (c : Fin 8) (i : Fin 64) (s : State) :
    ∃ x0 x1,
      retireIfIn c i s = { s with entries := x0, actions := x1 } := by
  obtain ⟨_, _, h⟩ := retireEntry_frame i s
  unfold retireIfIn
  rw [h]
  repeat' split
  all_goals exact ⟨_, _, rfl⟩

/-- BATCH_ACTIVATE at one position reaches the match and action tables alone (R23). -/
theorem activateAt_frame (b : Fin 8) (c : Option (Fin 8)) (i : Fin 64) (s : State) :
    ∃ x0 x1,
      activateAt b c i s = { s with entries := x0, actions := x1 } := by
  obtain ⟨_, _, h⟩ := retireEntry_frame i s
  unfold activateAt
  rw [h]
  dsimp only
  repeat' split
  all_goals exact ⟨_, _, rfl⟩

/-- A change at every position that reaches the match and action tables alone does so as a whole. -/
theorem atEveryPosition_frame (f : Fin 64 → State → State)
    (hf : ∀ i s, ∃ x0 x1, f i s = { s with entries := x0, actions := x1 }) (s : State) :
    ∃ x0 x1, atEveryPosition f s = { s with entries := x0, actions := x1 } := by
  unfold atEveryPosition
  generalize List.finRange 64 = l
  induction l generalizing s with
  | nil => exact ⟨_, _, rfl⟩
  | cons i l ih =>
    obtain ⟨_, _, h⟩ := hf i s
    obtain ⟨_, _, h'⟩ := ih (f i s)
    rw [List.foldl_cons, h', h]
    exact ⟨_, _, rfl⟩

/-- ENTRY_WRITE reaches the match and action tables alone (R16). -/
theorem writeEntry_frame (i : Fin 64) (e : Entry) (s : State) :
    ∃ x0 x1,
      writeEntry i e s = { s with entries := x0, actions := x1 } := by
  unfold writeEntry
  dsimp only
  repeat' split
  all_goals exact ⟨_, _, rfl⟩

/-- A hit reaches the match table and the report unit alone (R11). -/
theorem recordHit_frame (i : Fin 64) (s : State) :
    ∃ x0 x1 x2 x3,
      recordHit i s = { s with entries := x0, waiting := x1, lostSinceSent := x2, stats := x3 } := by
  unfold recordHit
  dsimp only
  split
  · obtain ⟨_, _, _, h⟩ := occur_frame .entryFirstHit i.val
      (s.setEntry i { s.entries[i] with hits := satAdd s.entries[i].hits 1 })
    rw [h]
    exact ⟨_, _, _, _, rfl⟩
  · exact ⟨_, _, _, _, rfl⟩

/-- A charge reaches its meter and the report unit alone (R48, R49). -/
theorem chargeMeter_frame (m : Fin 16) (n : Nat) (s : State) :
    ∃ x0 x1 x2 x3,
      (chargeMeter m n s).1 = { s with meters := x0, waiting := x1, lostSinceSent := x2, stats := x3 } := by
  unfold chargeMeter
  dsimp only
  repeat' split
  · exact ⟨_, _, _, _, rfl⟩
  · exact ⟨_, _, _, _, rfl⟩
  · obtain ⟨_, _, _, h⟩ := occur_frame .meterExceeded m.val
      (s.setMeter m { s.meters[m] with exceed := satAdd s.meters[m].exceed 1, inExcess := true })
    rw [h]
    exact ⟨_, _, _, _, rfl⟩

/-- The charge of an action reaches the meters and the report unit alone (R47). -/
theorem chargeAction_frame (a : Action) (n : Nat) (s : State) :
    ∃ x0 x1 x2 x3,
      (chargeAction a n s).1 = { s with meters := x0, waiting := x1, lostSinceSent := x2, stats := x3 } := by
  unfold chargeAction
  split
  · exact chargeMeter_frame _ n s
  · exact ⟨_, _, _, _, rfl⟩

/-- Forming a verdict reaches hit counts, meters and the report unit alone (R14). -/
theorem formVerdict_frame (l : Latched) (buf : List Byte) (s : State) :
    ∃ x0 x1 x2 x3 x4,
      (formVerdict l buf s).1 = { s with entries := x0, meters := x1, waiting := x2, lostSinceSent := x3, stats := x4 } := by
  unfold formVerdict
  dsimp only
  split
  · rename_i i _
    obtain ⟨_, _, _, _, h⟩ := recordHit_frame i s
    rw [h]
    obtain ⟨_, _, _, _, h'⟩ := chargeAction_frame _ (cellSize l.header.length) { s with
      entries := _, waiting := _, lostSinceSent := _, stats := _ }
    rw [h']
    exact ⟨_, _, _, _, _, rfl⟩
  · obtain ⟨_, _, _, _, h'⟩ := chargeAction_frame
      (selectAction s.settings.missAction s) (cellSize l.header.length) s
    rw [h']
    exact ⟨_, _, _, _, _, rfl⟩

/-- Key-complete reaches hit counts, meters, the reception record and the report unit alone (R101). -/
theorem reachVerdict_frame (r : Reception) (l : Latched) (s : State) :
    ∃ x0 x1 x2 x3 x4 x5,
      (reachVerdict r l s).1 = { s with entries := x0, meters := x1, tailRx := x2, waiting := x3, lostSinceSent := x4, stats := x5 } := by
  unfold reachVerdict
  split
  · exact ⟨_, _, _, _, _, _, rfl⟩
  · obtain ⟨_, _, _, _, _, h⟩ := formVerdict_frame l r.buf s
    dsimp only
    rw [h]
    exact ⟨_, _, _, _, _, _, rfl⟩

/-- An addition reaches its bin and the report unit alone (R68). -/
theorem addToBin_frame (b n : Nat) (s : State) :
    ∃ x0 x1 x2 x3,
      addToBin b n s = { s with bins := x0, waiting := x1, lostSinceSent := x2, stats := x3 } := by
  unfold addToBin
  dsimp only
  split
  · obtain ⟨_, _, _, h⟩ := occur_frame .binSaturated b (s.setBin b (satAdd (s.bin b) n))
    rw [h]
    exact ⟨_, _, _, _, rfl⟩
  · exact ⟨_, _, _, _, rfl⟩

/-- Bin counting reaches the bin unit and the report unit alone (R63). -/
theorem countCell_frame (n : Fin 8) (c : BinConfig) (h : Header) (buf : List Byte) (s : State) :
    ∃ x0 x1 x2 x3 x4,
      countCell n c h buf s = { s with bins := x0, rules := x1, waiting := x2, lostSinceSent := x3, stats := x4 } := by
  unfold countCell
  dsimp only
  split
  · exact ⟨_, _, _, _, _, rfl⟩
  · split
    · exact ⟨_, _, _, _, _, rfl⟩
    · split
      · exact ⟨_, _, _, _, _, rfl⟩
      · rename_i v _
        obtain ⟨_, _, _, _, e⟩ := addToBin_frame (binIndex c v) (binAmount c h.length)
          (s.setRule n { s.rules[n] with counted := satAdd s.rules[n].counted 1 })
        rw [e]
        exact ⟨_, _, _, _, _, rfl⟩

/-- Bin counting reaches the bin unit and the report unit alone (R63). -/
theorem countVerdict_frame (v : Verdict) (h : Header) (buf : List Byte) (s : State) :
    ∃ x0 x1 x2 x3 x4,
      countVerdict v h buf s = { s with bins := x0, rules := x1, waiting := x2, lostSinceSent := x3, stats := x4 } := by
  unfold countVerdict
  split
  · exact countCell_frame _ _ h buf s
  · exact ⟨_, _, _, _, _, rfl⟩

/-- The outcome step reaches the counters and the report unit alone (R104, R111). -/
theorem countOutcome_frame (o : CellOutcome) (s : State) :
    ∃ x0 x1 x2,
      countOutcome o s = { s with waiting := x0, lostSinceSent := x1, stats := x2 } := by
  unfold countOutcome
  split
  · exact ⟨_, _, _, rfl⟩
  · exact ⟨_, _, _, rfl⟩
  · obtain ⟨_, _, _, h⟩ := occur_frame .poolExhausted 1 (s.count .queueDropped)
    rw [h]
    exact ⟨_, _, _, rfl⟩
  · exact ⟨_, _, _, rfl⟩
  · exact ⟨_, _, _, rfl⟩

/-- The capture step reaches the ring, its counter and the report unit alone (R84, R85). -/
theorem captureCell_frame (v : Verdict) (o : CellOutcome) (h : Header) (buf : List Byte) (s : State) :
    ∃ x0 x1 x2 x3 x4,
      captureCell v o h buf s = { s with captures := x0, nextCapture := x1, waiting := x2, lostSinceSent := x3, stats := x4 } := by
  unfold captureCell
  split
  · split
    · obtain ⟨_, _, _, e⟩ := occur_frame .captureReady 0
        { s with captures := s.captures ++ [captureRecord v o h buf s], nextCapture := s.nextCapture + 1 }
      rw [e]
      exact ⟨_, _, _, _, _, rfl⟩
    · obtain ⟨_, _, _, e⟩ := occur_frame .captureLost 0 (s.count .capturesLost)
      rw [e]
      exact ⟨_, _, _, _, _, rfl⟩
  · exact ⟨_, _, _, _, _, rfl⟩

/-- The close of an end-of-cell reaches the pool, the queues, the receive state and the released entry alone (R105). -/
theorem closeCell_frame (o : CellOutcome) (c : Cell) (s : State) :
    ∃ x0 x1 x2 x3 x4 x5,
      closeCell o c s = { s with entries := x0, actions := x1, freeBuffers := x2, tailRx := x3, urgent := x4, normal := x5 } := by
  obtain ⟨_, _, h⟩ := releaseHeld_frame s
  unfold closeCell
  rw [h]
  dsimp only
  split
  all_goals exact ⟨_, _, _, _, _, _, rfl⟩

/-- The disposition of a good cell leaves the meters, settings, ports, replies and the Head side as they were (R103). -/
theorem disposeCell_frame (v : Verdict) (h : Header) (buf : List Byte) (s : State) :
    ∃ x0 x1 x2 x3 x4 x5 x6 x7 x8 x9 x10 x11 x12,
      disposeCell v h buf s = { s with entries := x0, actions := x1, bins := x2, rules := x3, captures := x4, nextCapture := x5, freeBuffers := x6, tailRx := x7, urgent := x8, normal := x9, waiting := x10, lostSinceSent := x11, stats := x12 } := by
  unfold disposeCell
  dsimp only
  obtain ⟨_, _, _, _, _, h1⟩ := countVerdict_frame v h buf s
  rw [h1]
  generalize decideOutcome v _ = o
  obtain ⟨_, _, _, h2⟩ := countOutcome_frame o _
  rw [h2]
  obtain ⟨_, _, _, _, _, h3⟩ := captureCell_frame v o h buf _
  rw [h3]
  obtain ⟨_, _, _, _, _, _, h4⟩ := closeCell_frame o (rewritten v.act buf) _
  rw [h4]
  exact ⟨_, _, _, _, _, _, _, _, _, _, _, _, _, rfl⟩

/-- A failed cell reaches its counter, the pool, the receive state and the released entry alone (R102, R107). -/
theorem failReception_frame (c : Counter) (s : State) :
    ∃ x0 x1 x2 x3 x4,
      failReception c s = { s with entries := x0, actions := x1, freeBuffers := x2, tailRx := x3, stats := x4 } := by
  unfold failReception freeReception
  obtain ⟨_, _, h⟩ := releaseHeld_frame (s.count c)
  rw [h]
  exact ⟨_, _, _, _, _, rfl⟩

/-- End-of-cell on Tail leaves the settings, ports, replies, SENT records and the Head side as they were (R102, R103). -/
theorem tailEnd_frame (ok : Nat → List Byte → Bool) (s : State) :
    ∃ x0 x1 x2 x3 x4 x5 x6 x7 x8 x9 x10 x11 x12 x13,
      tailEnd ok s = { s with entries := x0, actions := x1, meters := x2, bins := x3, rules := x4, captures := x5, nextCapture := x6, freeBuffers := x7, tailRx := x8, urgent := x9, normal := x10, waiting := x11, lostSinceSent := x12, stats := x13 } := by
  unfold tailEnd
  split
  · rename_i r _
    split
    · obtain ⟨_, _, _, _, _, h⟩ := failReception_frame .headerBad s
      rw [h]
      exact ⟨_, _, _, _, _, _, _, _, _, _, _, _, _, _, rfl⟩
    · rename_i l _
      unfold endReception
      dsimp only
      obtain ⟨_, _, _, _, _, _, h1⟩ := reachVerdict_frame r l s
      rw [h1]
      split
      · obtain ⟨_, _, _, _, _, _, _, _, _, _, _, _, _, h2⟩ := disposeCell_frame (reachVerdict r l s).2 l.header r.buf _
        rw [h2]
        exact ⟨_, _, _, _, _, _, _, _, _, _, _, _, _, _, rfl⟩
      · obtain ⟨_, _, _, _, _, h2⟩ := failReception_frame .payloadBad _
        rw [h2]
        exact ⟨_, _, _, _, _, _, _, _, _, _, _, _, _, _, rfl⟩
  · exact ⟨_, _, _, _, _, _, _, _, _, _, _, _, _, _, rfl⟩
  · exact ⟨_, _, _, _, _, _, _, _, _, _, _, _, _, _, rfl⟩

/-- An abort on Tail reaches its counter, the pool, the receive state and the released entry alone (R107). -/
theorem tailAbort_frame (s : State) :
    ∃ x0 x1 x2 x3 x4,
      tailAbort s = { s with entries := x0, actions := x1, freeBuffers := x2, tailRx := x3, stats := x4 } := by
  unfold tailAbort
  split
  · exact failReception_frame .rxAborted s
  · exact ⟨_, _, _, _, _, rfl⟩
  · exact ⟨_, _, _, _, _, rfl⟩

/-- Start-of-cell on Tail reaches the pool, the receive state, the counters and the report unit alone (R97). -/
theorem tailStartOfCell_frame (s : State) :
    ∃ x0 x1 x2 x3 x4,
      tailStartOfCell s = { s with freeBuffers := x0, tailRx := x1, waiting := x2, lostSinceSent := x3, stats := x4 } := by
  unfold tailStartOfCell
  split
  · dsimp only
    split
    · exact ⟨_, _, _, _, _, rfl⟩
    · obtain ⟨_, _, _, h⟩ := occur_frame .poolExhausted 0
        (({ s.count .started with tailRx := .discarding } : State).count .poolDropped)
      rw [h]
      exact ⟨_, _, _, _, _, rfl⟩
  · exact ⟨_, _, _, _, _, rfl⟩
  · exact ⟨_, _, _, _, _, rfl⟩

/-- Header-complete on Tail (R99). -/
theorem tailHeaderComplete_frame (r : Reception) (s : State) :
    ∃ x0 x1 x2 x3 x4 x5 x6,
      tailHeaderComplete r s = { s with entries := x0, meters := x1, freeBuffers := x2, tailRx := x3, waiting := x4, lostSinceSent := x5, stats := x6 } := by
  unfold tailHeaderComplete
  dsimp only
  split
  · exact ⟨_, _, _, _, _, _, _, rfl⟩
  · split
    · unfold keyComplete
      obtain ⟨_, _, _, _, _, _, h⟩ := reachVerdict_frame _ _ _
      rw [h]
      exact ⟨_, _, _, _, _, _, _, rfl⟩
    · exact ⟨_, _, _, _, _, _, _, rfl⟩

/-- A byte on Tail reaches the reception record, hit counts, meters, the pool and the report unit alone (R99, R101). -/
theorem tailByte_frame (b : Byte) (s : State) :
    ∃ x0 x1 x2 x3 x4 x5 x6,
      tailByte b s = { s with entries := x0, meters := x1, freeBuffers := x2, tailRx := x3, waiting := x4, lostSinceSent := x5, stats := x6 } := by
  unfold tailByte
  split
  · split
    · dsimp only
      split
      · split
        · obtain ⟨_, _, _, _, _, _, _, h⟩ := tailHeaderComplete_frame _ _
          rw [h]
          exact ⟨_, _, _, _, _, _, _, rfl⟩
        · exact ⟨_, _, _, _, _, _, _, rfl⟩
      · split
        · unfold keyComplete
          obtain ⟨_, _, _, _, _, _, h⟩ := reachVerdict_frame _ _ _
          rw [h]
          exact ⟨_, _, _, _, _, _, _, rfl⟩
        · exact ⟨_, _, _, _, _, _, _, rfl⟩
    · exact ⟨_, _, _, _, _, _, _, rfl⟩
  · exact ⟨_, _, _, _, _, _, _, rfl⟩
  · exact ⟨_, _, _, _, _, _, _, rfl⟩

/-- A grant reaches the transmitter, the starvation count, the reply queue and the report unit alone (R123). -/
theorem grantTo_frame (g : GrantSource) (s : State) :
    ∃ x0 x1 x2 x3 x4 x5 x6,
      grantTo g s = { s with headTx := x0, starvation := x1, waiting := x2, sent := x3, nextSequence := x4, lostSinceSent := x5, replies := x6 } := by
  unfold grantTo yieldNormal sendReply sendUrgent sendReport sendNormal
  dsimp only
  repeat' split
  all_goals exact ⟨_, _, _, _, _, _, _, rfl⟩

/-- The grant decision reaches the transmitter, the starvation count, the reply queue and the report unit alone (R120). -/
theorem headGrant_frame (s : State) :
    ∃ x0 x1 x2 x3 x4 x5 x6,
      headGrant s = { s with headTx := x0, starvation := x1, waiting := x2, sent := x3, nextSequence := x4, lostSinceSent := x5, replies := x6 } := by
  unfold headGrant
  split
  · split
    · split
      · exact grantTo_frame _ s
      · exact ⟨_, _, _, _, _, _, _, rfl⟩
    · exact ⟨_, _, _, _, _, _, _, rfl⟩
  · exact ⟨_, _, _, _, _, _, _, rfl⟩

/-- The start of the Tail transmitter reaches nothing else (R196). -/
theorem tailStart_frame (s : State) :
    ∃ x0,
      tailStart s = { s with tailTx := x0 } := by
  unfold tailStart
  split
  all_goals exact ⟨_, rfl⟩

/-- The close of an event reaches the two transmitters, the starvation count, the reply queue and the report unit alone (log 3). -/
theorem settle_frame (s : State) :
    ∃ x0 x1 x2 x3 x4 x5 x6 x7,
      settle s = { s with headTx := x0, starvation := x1, waiting := x2, sent := x3, nextSequence := x4, lostSinceSent := x5, replies := x6, tailTx := x7 } := by
  unfold settle
  obtain ⟨_, _, _, _, _, _, _, h⟩ := headGrant_frame s
  obtain ⟨_, h'⟩ := tailStart_frame (headGrant s)
  rw [h', h]
  exact ⟨_, _, _, _, _, _, _, _, rfl⟩

/-- What a device reset keeps (table after R177): the node address, the next report sequence, the line time, the
ports, the Head receive side, the downstream path, and the model's own fields. -/
theorem deviceReset_keeps (s : State) :
    (deviceReset s).nextSequence = s.nextSequence ∧ (deviceReset s).nodeAddress = s.nodeAddress ∧
      (deviceReset s).lineTime = s.lineTime ∧ (deviceReset s).headPort = s.headPort ∧
      (deviceReset s).tailPort = s.tailPort ∧ (deviceReset s).headRx = s.headRx ∧
      (deviceReset s).downQueue = s.downQueue ∧ (deviceReset s).tailTx = s.tailTx ∧
      (deviceReset s).headCut = s.headCut ∧ (deviceReset s).tailCut = s.tailCut ∧
      (deviceReset s).resetHeld = s.resetHeld ∧ (deviceReset s).freeIndex = s.freeIndex ∧
      (deviceReset s).pending = s.pending := by
  unfold deviceReset
  obtain ⟨_, _, _, h⟩ := occur_frame .resetDone 1 (deviceResetValues s)
  rw [h]
  exact ⟨rfl, rfl, rfl, rfl, rfl, rfl, rfl, rfl, rfl, rfl, rfl, rfl, rfl⟩

/-- A device reset in one equation: the blocks' values, and the RESET_DONE record (R150). -/
theorem deviceReset_eq (s : State) :
    deviceReset s = { deviceResetValues s with waiting := [⟨.resetDone, 1, 1, s.lineTime⟩] } := by
  have ha : (deviceResetValues s).accepts .resetDone = true := by
    show (0xFF#8).getLsbD (8 - 1) = true
    decide
  unfold deviceReset occur
  rw [if_pos ha]
  rfl

/-- The record of a cut reaches what had left on the two lines and the index of the free value alone (R183). -/
theorem recordCut_frame (p : Side) (e : TxEnd) (c : Cell) (s : State) :
    ∃ x0 x1 x2,
      recordCut p e c s = { s with headCut := x0, tailCut := x1, freeIndex := x2 } := by
  cases e <;> cases p <;> exact ⟨_, _, _, rfl⟩

/-- The end of a Tail transmission reaches the downstream path, its counters and the record of a cut alone (R196). -/
theorem tailTxEnd_frame (e : TxEnd) (s : State) :
    ∃ x0 x1 x2 x3 x4,
      tailTxEnd e s =
        { s with downQueue := x0, tailTx := x1, tailCut := x2, stats := x3, freeIndex := x4 } := by
  unfold tailTxEnd
  split
  · exact ⟨_, _, _, _, _, rfl⟩
  · cases e
    all_goals exact ⟨_, _, _, _, _, rfl⟩

/-- The start of a report timer reaches the SENT records alone (R142). -/
theorem startReportTimer_frame (q : Byte) (s : State) :
    ∃ x0,
      startReportTimer q s = { s with sent := x0 } := by
  exact ⟨_, rfl⟩

/-- A report timer reaches the SENT records and reports_abandoned alone (R143). -/
theorem expireSequence_frame (q : Byte) (s : State) :
    ∃ x0 x1,
      expireSequence q s = { s with sent := x0, stats := x1 } := by
  unfold expireSequence expireRecord
  repeat' split
  all_goals exact ⟨_, _, rfl⟩

/-- A refill reaches the meters and the refill timer alone (R46). -/
theorem expireRefill_frame (s : State) :
    ∃ x0 x1,
      expireRefill s = { s with meters := x0, refillLeft := x1 } := by
  unfold expireRefill refillAll
  split
  all_goals exact ⟨_, _, rfl⟩

/-- A cell that joins the downstream queue reaches it and dropped_down alone (R195). -/
theorem joinDownstream_frame (c : Cell) (s : State) :
    ∃ x0 x1,
      joinDownstream c s = { s with downQueue := x0, stats := x1 } := by
  unfold joinDownstream
  repeat' split
  all_goals exact ⟨_, _, rfl⟩

/-- Start-of-cell on Head (R193). -/
theorem headStartOfCell_frame (s : State) :
    ∃ x0,
      headStartOfCell s = { s with headRx := x0 } := by
  unfold headStartOfCell
  repeat' split
  all_goals exact ⟨_, rfl⟩

/-- A byte on Head reaches the Head receive side and bad_down alone (R193). -/
theorem headByte_frame (b : Byte) (s : State) :
    ∃ x0 x1,
      headByte b s = { s with headRx := x0, stats := x1 } := by
  unfold headByte headHeaderComplete
  dsimp only
  repeat' split
  all_goals exact ⟨_, _, rfl⟩

/-- An abort on Head reaches the Head receive side and bad_down alone (R193). -/
theorem headAbort_frame (s : State) :
    ∃ x0 x1,
      headAbort s = { s with headRx := x0, stats := x1 } := by
  unfold headAbort
  repeat' split
  all_goals exact ⟨_, _, rfl⟩

end Sys2Proof.Machine
end

