-- ==== Sys2Proof/Laws/Entries.lean ====
section
/-! SUPPORT. What the operations over the match table and the reference counts do, said once: per position, and for
a change made at every position. -/

namespace Sys2Proof.Machine

/-- One more reference, at one record (R33). -/
theorem addRef_at (a b : Fin 32) (s : State) :
    (addRef a s).actions[b] = { s.actions[b] with refs := s.actions[b].refs + if a = b then 1 else 0 } := by
  unfold addRef
  rw [State.setRecord_at]
  split <;> rename_i h
  · subst h; simp
  · simp

/-- One reference less, at one record (R33). -/
theorem dropRef_at (a b : Fin 32) (s : State) :
    (dropRef a s).actions[b] = { s.actions[b] with refs := s.actions[b].refs - if a = b then 1 else 0 } := by
  unfold dropRef
  rw [State.setRecord_at]
  split <;> rename_i h
  · subst h; simp
  · simp

/-- An entry that enters EMPTY is cleared, and no other entry changes (R9). -/
theorem emptyEntry_entries (i j : Fin 64) (s : State) :
    (emptyEntry i s).entries[j] = if i = j ∧ s.entries[i].state ≠ .empty then Entry.cleared else s.entries[j] := by
  have hs : (s.setEntry i Entry.cleared).entries[j] = if i = j then Entry.cleared else s.entries[j] :=
    State.setEntry_at s i j _
  have hd : ∀ a, (dropRef a (s.setEntry i Entry.cleared)).entries = (s.setEntry i Entry.cleared).entries :=
    fun _ => rfl
  unfold emptyEntry
  cases h : s.entries[i].state <;> simp only [hd, hs] <;> simp

/-- An entry that enters EMPTY drops its reference, and no other record changes (R8). -/
theorem emptyEntry_actions (i : Fin 64) (a : Fin 32) (s : State) :
    (emptyEntry i s).actions[a] = { s.actions[a] with
      refs := s.actions[a].refs - if s.entries[i].state ≠ .empty ∧ s.entries[i].action = a then 1 else 0 } := by
  unfold emptyEntry
  cases h : s.entries[i].state <;> simp [-Fin.getElem_fin, dropRef_at]

/-- The held entry depends on the reception alone (R12). -/
theorem held_congr {s u : State} (h : u.tailRx = s.tailRx) : u.held = s.held := by
  unfold State.held
  rw [h]

/-- One reference less for an entry that names `a` and goes to EMPTY as `e`. -/
def leaves (a : Fin 32) (before after : Entry) : Bool :=
  before.state != .empty && before.action == a && after.state == .empty

/-- What a change of one entry does: the entry becomes `e`, and its record drops a reference if it has entered
EMPTY. -/
structure ChangesEntry (i : Fin 64) (e : Entry) (s u : State) : Prop where
  entries : ∀ j : Fin 64, u.entries[j] = if i = j then e else s.entries[j]
  actions : ∀ a : Fin 32, u.actions[a] = { s.actions[a] with
    refs := s.actions[a].refs - if leaves a s.entries[i] e then 1 else 0 }
  rest : u = { s with entries := u.entries, actions := u.actions }

theorem ChangesEntry.none (i : Fin 64) (s : State) : ChangesEntry i s.entries[i] s s where
  entries := by intro j; split <;> rename_i h <;> [rw [h]; rfl]
  actions := by
    intro a
    have : leaves a s.entries[i] s.entries[i] = false := by
      unfold leaves
      cases s.entries[i].state <;> simp
    simp [-Fin.getElem_fin, this]
  rest := rfl

theorem ChangesEntry.set (i : Fin 64) (e : Entry) (s : State) (h : e.state ≠ .empty) :
    ChangesEntry i e s (s.setEntry i e) where
  entries := fun j => State.setEntry_at s i j e
  actions := by
    intro a
    have : leaves a s.entries[i] e = false := by
      unfold leaves
      simp [h]
    simp [-Fin.getElem_fin, this]
  rest := rfl

theorem ChangesEntry.empty (i : Fin 64) (s : State) (h : s.entries[i].state ≠ .empty) :
    ChangesEntry i Entry.cleared s (emptyEntry i s) where
  entries := by intro j; rw [emptyEntry_entries]; simp [-Fin.getElem_fin, h]
  actions := by
    intro a
    rw [emptyEntry_actions]
    simp [-Fin.getElem_fin, leaves, h, Entry.cleared]
  rest := by
    obtain ⟨_, _, e⟩ := emptyEntry_frame i s
    rw [e]

/-- Retirement leaves `retiredEntry` at its position (R18). -/
theorem retireEntry_changes (i : Fin 64) (s : State) :
    ChangesEntry i (retiredEntry i s) s (retireEntry i s) := by
  unfold retireEntry retiredEntry
  cases h : s.entries[i].state with
  | empty => exact .none i s
  | pending => exact .empty i s (by rw [h]; decide)
  | live =>
    dsimp only
    split
    · exact .set i _ s (by simp)
    · exact .empty i s (by rw [h]; decide)
  | retiring => exact .none i s

/-- BATCH_RETIRE at one position (R20). -/
theorem retireIfIn_changes (c : Fin 8) (i : Fin 64) (s : State) :
    ChangesEntry i (if s.entries[i].batch = c then retiredEntry i s else s.entries[i]) s (retireIfIn c i s) := by
  unfold retireIfIn
  split
  · exact retireEntry_changes i s
  · exact .none i s

/-- BATCH_DISCARD at one position (R21). -/
theorem discardIfIn_changes (b : Fin 8) (i : Fin 64) (s : State) :
    ChangesEntry i (if s.entries[i].state = .pending ∧ s.entries[i].batch = b then Entry.cleared
      else s.entries[i]) s (discardIfIn b i s) := by
  unfold discardIfIn
  split
  · rename_i h; exact .empty i s (by rw [h.1]; decide)
  · exact .none i s

/-- BATCH_ACTIVATE at one position (R22, R23). -/
theorem activateAt_changes (b : Fin 8) (c : Option (Fin 8)) (i : Fin 64) (s : State) :
    ChangesEntry i (if s.entries[i].state = .pending ∧ s.entries[i].batch = b then
        { s.entries[i] with state := .live, hits := 0 }
      else if s.entries[i].state = .live ∧ c = some s.entries[i].batch then retiredEntry i s
      else s.entries[i]) s (activateAt b c i s) := by
  unfold activateAt
  dsimp only
  split
  · exact .set i _ s (by simp)
  · split
    · exact retireEntry_changes i s
    · exact .none i s

/-- A change made at every position changes each entry as it stood before, and every record drops one reference for
each entry naming it that enters EMPTY. `g` is what the change makes of an entry, given what the reception holds. -/
theorem atEveryPosition_changes (f : Fin 64 → State → State) (g : Fin 64 → State → Entry)
    (hf : ∀ i s, ChangesEntry i (g i s) s (f i s))
    (hg : ∀ i s u, u.tailRx = s.tailRx → u.entries[i] = s.entries[i] → g i u = g i s) (s : State) :
    EntriesLeft s (atEveryPosition f s) ∧ ∀ j : Fin 64, (atEveryPosition f s).entries[j] = g j s := by
  have key : ∀ (l : List (Fin 64)) (u : State), l.Nodup → u.tailRx = s.tailRx →
      (∀ i ∈ l, u.entries[i] = s.entries[i]) →
      (∀ j : Fin 64, (l.foldl (fun t i => f i t) u).entries[j] = if j ∈ l then g j s else u.entries[j]) ∧
      (∀ a : Fin 32, (l.foldl (fun t i => f i t) u).actions[a] = { u.actions[a] with
        refs := u.actions[a].refs - l.countP fun i => leaves a s.entries[i] (g i s) }) ∧
      l.foldl (fun t i => f i t) u = { u with
        entries := (l.foldl (fun t i => f i t) u).entries, actions := (l.foldl (fun t i => f i t) u).actions } := by
    intro l
    induction l with
    | nil => intro u _ _ _; exact ⟨fun j => by simp, fun a => by simp, rfl⟩
    | cons i l ih =>
      intro u hn hr he
      obtain ⟨hi, hn⟩ := List.nodup_cons.1 hn
      have hc := hf i u
      have hgi : g i u = g i s := hg i s u hr (he i (by simp))
      have hr' : (f i u).tailRx = s.tailRx := by rw [hc.rest]; exact hr
      obtain ⟨h1, h2, h3⟩ := ih (f i u) hn hr' (by
        intro j hj
        rw [hc.entries, if_neg (by rintro rfl; exact hi hj)]
        exact he j (by simp [hj]))
      refine ⟨fun j => ?_, fun a => ?_, ?_⟩
      · rw [List.foldl_cons, h1]
        by_cases hj : j ∈ l
        · simp [hj]
        · rw [if_neg hj, hc.entries, hgi]
          by_cases hij : i = j
          · subst hij; simp
          · rw [if_neg hij, if_neg (by simp [hj]; exact fun h => hij h.symm)]
      · rw [List.foldl_cons, h2, hc.actions, hgi, he i (by simp), List.countP_cons]
        simp only [ActionRecord.mk.injEq, true_and]
        omega
      · rw [List.foldl_cons, h3, hc.rest]
  obtain ⟨h1, h2, h3⟩ := key (List.finRange 64) s (List.nodup_finRange 64) rfl (fun _ _ => rfl)
  have h1' : ∀ j : Fin 64, (atEveryPosition f s).entries[j] = g j s := by
    intro j
    have := h1 j
    rwa [if_pos (List.mem_finRange j)] at this
  refine ⟨⟨fun a => ?_, h3⟩, h1'⟩
  refine (h2 a).trans ?_
  have : emptied a s (atEveryPosition f s) =
      (List.finRange 64).countP fun i => leaves a s.entries[i] (g i s) := by
    unfold emptied
    refine List.countP_congr fun i _ => ?_
    rw [h1' i]
    rfl
  rw [this]

end Sys2Proof.Machine
end

