-- ==== Sys2Proof/Laws/Keeps.lean ====
section
/-! SUPPORT. The case split of a step, packaged once: a property of states that every kind of event keeps is
kept by every step. -/

namespace Sys2Proof.Machine

/-- A property that each kind of event keeps. -/
structure KeptByEvents (Inv : State → Prop) : Prop where
  pending : ∀ (s : State) (q : List Instr), Inv s → Inv { s with pending := q }
  powerOn : ∀ s : State, Inv s → Inv { State.reset with pending := s.pending, freeIndex := s.freeIndex }
  hold : ∀ s : State, Inv s → Inv (holdReset s)
  freeIndex : ∀ (s : State) (n : Nat), Inv s → Inv { s with freeIndex := n }
  grant : ∀ s : State, Inv s → Inv (headGrant s)
  start : ∀ s : State, Inv s → Inv (tailStart s)
  headTx : ∀ (e : TxEnd) (s : State), Inv s → Inv (headTxEnd e s)
  tailTx : ∀ (e : TxEnd) (s : State), Inv s → Inv (tailTxEnd e s)
  symbol : ∀ (p : Side) (y : Symbol) (s : State), Inv s → Inv (receive p y s)
  detect : ∀ (p : Side) (s : State), Inv s → Inv (detectSignal p s)
  lose : ∀ (p : Side) (s : State), Inv s → Inv (loseSignal p s)
  take : ∀ (f : Form) (code tag : Byte) (args : List Byte) (s : State),
    Inv s → Inv (takeRequest f code tag args s)
  refill : ∀ s : State, Inv s → Inv (expireRefill s)
  expire : ∀ (q : Byte) (s : State), Inv s → Inv (expireSequence q s)
  advance : ∀ s : State, Inv s → Inv (advanceTime s)

theorem KeptByEvents.settle {Inv : State → Prop} (h : KeptByEvents Inv) (s : State) (hs : Inv s) :
    Inv (settle s) := h.start _ (h.grant _ hs)

theorem unlessHeld_keeps {Inv : State → Prop} {f : State → State} (hf : ∀ s, Inv s → Inv (f s)) (s : State)
    (hs : Inv s) : Inv (unlessHeld f s) := by
  unfold unlessHeld
  split
  · exact hs
  · exact hf s hs

theorem KeptByEvents.overdue {Inv : State → Prop} (h : KeptByEvents Inv) (s : State) (hs : Inv s) :
    Inv (expireOverdue s) := by
  unfold expireOverdue
  generalize overdueSequences s = l
  induction l generalizing s with
  | nil => exact hs
  | cons q l ih => exact ih _ (h.settle _ (h.expire q s hs))

/-- Every request command is a taking with the decisions at its close. -/
theorem KeptByEvents.takeKind {Inv : State → Prop} (h : KeptByEvents Inv) {k : Kind} {f : Form} {tag : Byte}
    {args : List Byte} {s t : State} (hs : Inv s) (he : takeKind k f tag args s = .next t) : Inv t := by
  cases he
  exact unlessHeld_keeps (fun s hs => h.settle _ (h.take f k.code tag args s hs)) s hs

theorem KeptByEvents.symbolCommand {Inv : State → Prop} (h : KeptByEvents Inv) {p : Side} {y : Symbol}
    {s t : State} (hs : Inv s) (he : symbolCommand p y s = .next t) : Inv t := by
  cases he
  exact unlessHeld_keeps (fun s hs => h.settle _ (h.symbol p y s hs)) s hs

/-- A property that each kind of event keeps is kept by every command. -/
theorem KeptByEvents.exec {Inv : State → Prop} (h : KeptByEvents Inv) (c : Instr) (s t : State) (hs : Inv s)
    (he : exec c s = .next t) : Inv t := by
  cases c with
  | powerOnReset => cases he; exact h.powerOn s hs
  | signalDetected p => cases he; exact unlessHeld_keeps (h.detect p) s hs
  | lossOfSignal p => cases he; exact unlessHeld_keeps (fun s hs => h.settle _ (h.lose p s hs)) s hs
  | alignmentWord p => exact h.symbolCommand hs he
  | dataByte p b => exact h.symbolCommand hs he
  | codeViolation p => exact h.symbolCommand hs he
  | startOfCell => exact h.symbolCommand hs he
  | headerComplete b => exact h.symbolCommand hs he
  | keyComplete b => exact h.symbolCommand hs he
  | endOfCell => exact h.symbolCommand hs he
  | headStartOfCell => exact h.symbolCommand hs he
  | headHeaderComplete b => exact h.symbolCommand hs he
  | headEndOfCell => exact h.symbolCommand hs he
  | transmitStart => cases he; exact unlessHeld_keeps h.grant s hs
  | transmitComplete => cases he; exact unlessHeld_keeps (fun s hs => h.settle _ (h.headTx _ s hs)) s hs
  | tailTransmitStart => cases he; exact unlessHeld_keeps h.start s hs
  | tailTransmitComplete => cases he; exact unlessHeld_keeps (fun s hs => h.settle _ (h.tailTx _ s hs)) s hs
  | refillExpiry => cases he; exact unlessHeld_keeps h.refill s hs
  | reportTimerExpiry q => cases he; exact unlessHeld_keeps (fun s hs => h.settle _ (h.expire q s hs)) s hs
  | lineTimeTick =>
    cases he
    exact unlessHeld_keeps (fun s hs => h.advance _ (h.overdue _ (h.refill s hs))) s hs
  | resetnHeldLow ns =>
    change execResetnHeldLow ns s = .next t at he
    unfold execResetnHeldLow at he
    split at he
    · cases he; exact hs
    · split at he
      · cases he; exact h.hold s hs
      · split at he
        · cases he; exact h.hold _ (h.freeIndex s _ hs)
        · cases he; exact h.freeIndex s _ hs
  | ping f tag args => exact h.takeKind hs he
  | identRead f tag args => exact h.takeKind hs he
  | addressAssign f tag args => exact h.takeKind hs he
  | settingWrite f tag args => exact h.takeKind hs he
  | settingRead f tag args => exact h.takeKind hs he
  | entryWrite f tag args => exact h.takeKind hs he
  | entryRead f tag args => exact h.takeKind hs he
  | batchActivate f tag args => exact h.takeKind hs he
  | entryRetire f tag args => exact h.takeKind hs he
  | batchRetire f tag args => exact h.takeKind hs he
  | batchDiscard f tag args => exact h.takeKind hs he
  | actionWrite f tag args => exact h.takeKind hs he
  | actionRead f tag args => exact h.takeKind hs he
  | actionClear f tag args => exact h.takeKind hs he
  | meterWrite f tag args => exact h.takeKind hs he
  | meterRead f tag args => exact h.takeKind hs he
  | binruleWrite f tag args => exact h.takeKind hs he
  | binruleRead f tag args => exact h.takeKind hs he
  | binsRead f tag args => exact h.takeKind hs he
  | binsReadClear f tag args => exact h.takeKind hs he
  | binsClear f tag args => exact h.takeKind hs he
  | captureFetch f tag args => exact h.takeKind hs he
  | captureRelease f tag args => exact h.takeKind hs he
  | reportAck f tag args => exact h.takeKind hs he
  | statsRead f tag args => exact h.takeKind hs he
  | statsClear f tag args => exact h.takeKind hs he
  | deviceReset f tag args => exact h.takeKind hs he

/-- A property that each kind of event keeps is kept by every step. -/
theorem KeptByEvents.step {Inv : State → Prop} (h : KeptByEvents Inv) (s t : State) (hs : Inv s)
    (he : step s = .next t) : Inv t := by
  unfold Machine.step at he
  split at he
  · cases he; exact hs
  · exact h.exec _ _ t (h.pending s _ hs) he

/-! ### The parts of a symbol's event -/

/-- The parts of the events a port's symbols bring. `port` is asked of every value of the port, so this serves
properties that do not look at the ports. -/
structure KeptByPortParts (Inv : State → Prop) : Prop where
  port : ∀ (p : Side) (x : Port) (s : State), Inv s → Inv (s.setPort p x)
  start : ∀ (p : Side) (s : State), Inv s → Inv (startEvent p s)
  byte : ∀ (p : Side) (b : Byte) (s : State), Inv s → Inv (byteEvent p b s)
  stop : ∀ (p : Side) (s : State), Inv s → Inv (endEvent p s)
  fail : ∀ (p : Side) (s : State), Inv s → Inv (failEvent p s)
  abort : ∀ (p : Side) (s : State), Inv s → Inv (abortEvent p s)
  txAbort : ∀ (p : Side) (s : State), Inv s → Inv (abortTransmission p s)
  link : ∀ (n : Nat) (s : State), Inv s → Inv (occur .linkChanged n s)

namespace KeptByPortParts

variable {Inv : State → Prop} (h : KeptByPortParts Inv)
include h

theorem leaveUp (p : Side) (after : LinkState) (s : State) (hs : Inv s) : Inv (leaveUp p after s) := by
  unfold Machine.leaveUp
  dsimp only
  refine h.link _ _ (h.txAbort p _ ?_)
  split
  · exact h.abort p _ (h.port p _ _ hs)
  · exact h.port p _ _ hs

theorem violation (p : Side) (pos : FramingPosition) (s : State) (hs : Inv s) :
    Inv (framingViolation p pos s) := by
  unfold framingViolation
  dsimp only
  split
  · exact h.leaveUp p _ s hs
  · split
    · exact h.fail p _ (h.port p _ _ hs)
    · exact h.port p _ _ hs

theorem beginCell (p : Side) (s : State) (hs : Inv s) : Inv (beginCell p s) :=
  h.start p _ (h.port p _ _ hs)

theorem receive (p : Side) (y : Symbol) (s : State) (hs : Inv s) : Inv (receive p y s) := by
  unfold Machine.receive
  split
  · exact hs
  · unfold symbolAligning
    dsimp only
    split
    · split
      · exact h.port p _ _ hs
      · exact h.link _ _ (h.port p _ _ hs)
    · exact h.port p _ _ hs
  · split
    · cases y with
      | alignment => exact hs
      | startDelimiter => exact h.beginCell p s hs
      | data b => exact h.violation p _ s hs
      | endDelimiter => exact h.violation p _ s hs
      | violation => exact h.violation p _ s hs
    · cases y with
      | data b =>
        unfold symbolInCell
        dsimp only
        split
        · exact h.violation p _ s hs
        · exact h.byte p b _ (h.port p _ _ hs)
      | violation => exact h.byte p 0 _ (h.port p _ _ hs)
      | endDelimiter => exact h.stop p _ (h.port p _ _ hs)
      | startDelimiter =>
        unfold symbolInCell
        dsimp only
        split
        · exact h.beginCell p _ (h.violation p _ s hs)
        · exact h.violation p _ s hs
      | alignment => exact h.violation p _ s hs
    · cases y with
      | startDelimiter => exact h.beginCell p s hs
      | alignment => exact h.port p _ _ hs
      | data b => exact hs
      | endDelimiter => exact hs
      | violation => exact hs

theorem detect (p : Side) (s : State) (hs : Inv s) : Inv (detectSignal p s) := by
  unfold detectSignal
  split
  · exact h.port p _ _ hs
  · exact hs
  · exact hs

theorem lose (p : Side) (s : State) (hs : Inv s) : Inv (loseSignal p s) := by
  unfold loseSignal
  split
  · exact hs
  · exact h.port p _ _ hs
  · exact h.leaveUp p _ s hs

end KeptByPortParts

/-! ### The parts of a taking -/

/-- The counters the management block raises (R159). -/
def Counter.ofManagement : Counter → Bool
  | .requestsTaken => true
  | .replays => true
  | .mgmtDropped => true
  | .broadcastFailed => true
  | .broadcastRefused => true
  | _ => false

/-- The parts of the taking of a request. -/
structure KeptByTakingParts (Inv : State → Prop) : Prop where
  reset : ∀ s : State, Inv s → Inv (deviceReset s)
  owner : ∀ (k : Kind) (args : List Byte) (s : State), Inv s → Inv (ownerAnswer k args s).st
  count : ∀ (c : Counter) (s : State), c.ofManagement = true → Inv s → Inv (s.count c)
  queue : ∀ (r : Reply) (s : State), s.replies.length < 4 → Inv s → Inv { s with replies := s.replies ++ [r] }
  store : ∀ (m : MemoryRecord) (s : State), Inv s → Inv { s with memory := storeMemory m s.memory }

namespace KeptByTakingParts

/-- No owning rule touches the reply queue. -/
theorem ownerAnswer_replies (k : Kind) (args : List Byte) (s : State) :
    (ownerAnswer k args s).st.replies = s.replies := by
  have hpos : ∀ f : Fin 64 → State → State, (∀ i s, ∃ x0 x1, f i s = { s with entries := x0, actions := x1 }) →
      (atEveryPosition f s).replies = s.replies := by
    intro f hf
    obtain ⟨_, _, h⟩ := atEveryPosition_frame f hf s
    rw [h]
  cases k with
  | entryWrite =>
    simp only [ownerAnswer, answerEntryWrite, refusal]
    repeat' split
    all_goals first
      | rfl
      | (obtain ⟨_, _, h⟩ := writeEntry_frame _ _ s; rw [h])
  | batchActivate =>
    simp only [ownerAnswer, answerBatchActivate, refusal]
    split
    · dsimp only; rw [hpos _ (activateAt_frame _ _)]
    · rfl
  | entryRetire =>
    simp only [ownerAnswer, answerEntryRetire, refusal]
    split
    · rfl
    · obtain ⟨_, _, h⟩ := retireEntry_frame _ s; rw [h]
  | batchRetire =>
    simp only [ownerAnswer, answerBatchRetire, refusal]
    split
    · rfl
    · dsimp only; rw [hpos _ (retireIfIn_frame _)]
  | batchDiscard =>
    simp only [ownerAnswer, answerBatchDiscard, refusal]
    split
    · rfl
    · dsimp only; rw [hpos _ (discardIfIn_frame _)]
  | settingWrite =>
    simp only [ownerAnswer, answerSettingWrite, refusal]
    split
    · rfl
    · rename_i i _
      split
      · rfl
      · split
        · rfl
        · cases i <;> (simp only [setSetting, setMissAction]; try rfl)
          unfold moveRef
          repeat' split
          all_goals rfl
  | _ =>
    simp only [ownerAnswer, answerPing, answerIdentRead, answerAddressAssign, answerSettingRead, answerEntryRead,
      answerActionWrite, answerActionRead, answerActionClear, answerMeterWrite, answerMeterRead,
      answerBinruleWrite, answerBinruleRead, answerBinsRead, answerBinsReadClear, answerBinsClear,
      answerCaptureFetch, answerCaptureRelease, answerReportAck, answerStatsRead, answerStatsClear,
      answerDeviceReset, refusal]
    repeat' split
    all_goals rfl

variable {Inv : State → Prop} (h : KeptByTakingParts Inv)
include h

theorem execute (code : Byte) (args : List Byte) (s : State) (hs : Inv s) :
    Inv (executeRequest code args s).st := by
  unfold executeRequest
  split
  · exact hs
  · split
    · exact hs
    · exact h.owner _ args s hs

omit h in
theorem execute_replies (code : Byte) (args : List Byte) (s : State) :
    (executeRequest code args s).st.replies = s.replies := by
  unfold executeRequest
  split
  · rfl
  · split
    · rfl
    · exact ownerAnswer_replies _ args s

theorem take (f : Form) (code tag : Byte) (args : List Byte) (s : State) (hs : Inv s) :
    Inv (takeRequest f code tag args s) := by
  cases f with
  | addressed =>
    change Inv (takeAddressed code tag args s)
    unfold takeAddressed
    split
    · exact h.count _ _ rfl hs
    · split
      · exact h.count _ _ rfl hs
      · rename_i hroom
        have hlt : s.replies.length < 4 := by simpa [Config.replyPlaces] using hroom
        split
        · exact h.count _ _ rfl (h.count _ _ rfl (h.queue _ s hlt hs))
        · unfold executeAddressed
          split
          · exact h.reset s hs
          · refine h.count _ _ rfl ?_
            have hq := h.queue ⟨code, tag, (executeRequest code args s).status,
                (executeRequest code args s).results, code == Kind.deviceReset.code, false⟩ _
              (by rw [execute_replies]; exact hlt) (h.execute code args s hs)
            exact h.store _ _ hq
  | broadcast =>
    change Inv (takeBroadcast code args s)
    unfold takeBroadcast
    split
    · exact h.count _ _ rfl hs
    · split
      · split
        · unfold executeBroadcast
          split
          · exact h.reset s hs
          · dsimp only
            split
            · exact h.count _ _ rfl (h.execute _ args s hs)
            · exact h.count _ _ rfl (h.count _ _ rfl (h.execute _ args s hs))
        · exact h.count _ _ rfl hs
      · exact h.count _ _ rfl hs

end KeptByTakingParts

end Sys2Proof.Machine
end

