-- ==== Sys2Proof/Laws/Upstream.lean ====
section
/-! SUPPORT. The upstream path, said once: what an occurrence depends on, the charge of a meter, and that
classification forms the verdict of the spec, the payload check and the release of the held entry. -/

namespace Sys2Proof.Machine

/-- What an occurrence does is decided by the settings, the report queue and the line time (R137). -/
theorem occur_congr (k : ReportKind) (n : Nat) (s u : State) (h1 : u.settings = s.settings)
    (h2 : u.waiting = s.waiting) (h3 : u.sent = s.sent) (h4 : u.lineTime = s.lineTime)
    (h5 : u.lostSinceSent = s.lostSinceSent) (h6 : u.stats = s.stats) :
    (occur k n u).waiting = (occur k n s).waiting ∧ (occur k n u).lostSinceSent = (occur k n s).lostSinceSent ∧
      (occur k n u).stats = (occur k n s).stats := by
  have ha : u.accepts k = s.accepts k := by unfold State.accepts; rw [h1]
  have hc : u.reportCount = s.reportCount := by unfold State.reportCount; rw [h2, h3]
  unfold occur
  rw [ha, hc, h2]
  split
  · split
    · exact ⟨rfl, h5, h6⟩
    · split
      · dsimp only; rw [h4]; exact ⟨rfl, h5, h6⟩
      · dsimp only [State.count]; rw [h5, h6]; exact ⟨h2, rfl, rfl⟩
  · exact ⟨h2, h5, h6⟩

/-- The charge of a meter: its outcome, and the meter with the occurrence it raises (R48 to R50). -/
theorem chargeMeter_eq (m : Fin 16) (n : Nat) (s : State) :
    (chargeMeter m n s).2 = chargeOutcome n s.meters[m] ∧
      (chargeMeter m n s).1 = if s.meters[m].credit < n ∧ s.meters[m].inExcess = false then
          occur .meterExceeded m.val (s.setMeter m (chargedMeter n s.meters[m]))
        else s.setMeter m (chargedMeter n s.meters[m]) := by
  unfold chargeMeter chargeOutcome chargedMeter
  dsimp only
  split
  · exact ⟨rfl, by rw [if_neg (by omega)]⟩
  · refine ⟨rfl, ?_⟩
    dsimp only
    cases hx : s.meters[m].inExcess
    · rw [if_neg (by simp), if_pos ⟨by omega, rfl⟩]
    · rw [if_pos rfl, if_neg (by simp)]

/-- The state after the hit of a classification, if there is one (R11). -/
def hitState (hit : Option (Fin 64)) (s : State) : State :=
  match hit with
  | some i => recordHit i s
  | none => s

/-- The entry of a hit with the hit counted. -/
def hitEntry (e : Entry) : Entry := { e with hits := satAdd e.hits 1 }

theorem recordHit_eq (i : Fin 64) (s : State) :
    recordHit i s = if s.entries[i].hits = 0 ∧ s.entries[i].firstHit = true then
        occur .entryFirstHit i.val (s.setEntry i (hitEntry s.entries[i]))
      else s.setEntry i (hitEntry s.entries[i]) := rfl

theorem hitState_frame (hit : Option (Fin 64)) (s : State) :
    ∃ x0 x1 x2 x3, hitState hit s =
      { s with entries := x0, waiting := x1, lostSinceSent := x2, stats := x3 } := by
  cases hit with
  | none => exact ⟨_, _, _, _, rfl⟩
  | some i => exact recordHit_frame i s

theorem hitState_entries (hit : Option (Fin 64)) (s : State) (i : Fin 64) :
    (hitState hit s).entries[i] = if hit = some i then hitEntry s.entries[i] else s.entries[i] := by
  cases hit with
  | none => simp [hitState]
  | some j =>
    have hx : (recordHit j s).entries = (s.setEntry j (hitEntry s.entries[j])).entries := by
      rw [recordHit_eq]
      split
      · obtain ⟨_, _, _, e⟩ := occur_frame .entryFirstHit j.val (s.setEntry j (hitEntry s.entries[j]))
        rw [e]
      · rfl
    have hi : (recordHit j s).entries[i] = (s.setEntry j (hitEntry s.entries[j])).entries[i] :=
      congrArg (fun v : Vector Entry 64 => v[i]) hx
    refine hi.trans ?_
    rw [State.setEntry_at]
    by_cases hij : j = i
    · subst hij; simp
    · rw [if_neg hij, if_neg (by simpa using hij)]

/-- The occurrences of a hit and of a charge depend on nothing that the hit and the charge change. -/
theorem hitState_reports (v : Verdict) (size : Nat) (s : State) :
    (chargeAction v.act size (hitState v.entry s)).1.waiting = (keyOccurrences v size s).waiting ∧
      (chargeAction v.act size (hitState v.entry s)).1.lostSinceSent = (keyOccurrences v size s).lostSinceSent ∧
      (chargeAction v.act size (hitState v.entry s)).1.stats = (keyOccurrences v size s).stats := by
  obtain ⟨s2, ⟨e1, e2, e3, e4, e5, e6⟩, hk⟩ : ∃ s2 : State,
      ((hitState v.entry s).waiting = s2.waiting ∧ (hitState v.entry s).lostSinceSent = s2.lostSinceSent ∧
        (hitState v.entry s).stats = s2.stats ∧ s2.settings = s.settings ∧ s2.sent = s.sent ∧
        s2.lineTime = s.lineTime) ∧
      keyOccurrences v size s = match v.act.meter with
        | some m =>
          if s.meters[m].credit < size ∧ s.meters[m].inExcess = false then occur .meterExceeded m.val s2 else s2
        | none => s2 := by
    refine ⟨_, ?_, rfl⟩
    cases hv : v.entry with
    | none => exact ⟨rfl, rfl, rfl, rfl, rfl, rfl⟩
    | some i =>
      dsimp only [hitState]
      rw [recordHit_eq]
      split
      · obtain ⟨h3, h4, h5⟩ := occur_congr .entryFirstHit i.val s (s.setEntry i (hitEntry s.entries[i]))
          rfl rfl rfl rfl rfl rfl
        refine ⟨h3, h4, h5, ?_⟩
        obtain ⟨_, _, _, e⟩ := occur_frame .entryFirstHit i.val s
        rw [e]
        exact ⟨rfl, rfl, rfl⟩
      · exact ⟨rfl, rfl, rfl, rfl, rfl, rfl⟩
  obtain ⟨x0, x1, x2, x3, ef⟩ := hitState_frame v.entry s
  have hm : (hitState v.entry s).meters = s.meters := by rw [ef]
  rw [hk]
  unfold chargeAction
  cases v.act.meter with
  | none => exact ⟨e1, e2, e3⟩
  | some m =>
    dsimp only
    rw [(chargeMeter_eq m _ _).2]
    have hmm : (hitState v.entry s).meters[m] = s.meters[m] := congrArg (fun v : Vector Meter 16 => v[m]) hm
    rw [hmm]
    split
    · refine occur_congr .meterExceeded m.val s2 _ ?_ e1 ?_ ?_ e2 e3
      · change (hitState v.entry s).settings = _; rw [ef, e4]
      · change (hitState v.entry s).sent = _; rw [ef, e5]
      · change (hitState v.entry s).lineTime = _; rw [ef, e6]
    · exact ⟨e1, e2, e3⟩

theorem chargeAction_meters (a : Action) (size : Nat) (s : State) (m : Fin 16) :
    (chargeAction a size s).1.meters[m] =
      if a.meter = some m then chargedMeter size s.meters[m] else s.meters[m] := by
  unfold chargeAction
  cases a.meter with
  | none => simp
  | some n =>
    have hx : (chargeMeter n size s).1.meters = (s.setMeter n (chargedMeter size s.meters[n])).meters := by
      rw [(chargeMeter_eq _ _ _).2]
      split
      · obtain ⟨_, _, _, e⟩ := occur_frame .meterExceeded n.val (s.setMeter n (chargedMeter size s.meters[n]))
        rw [e]
      · rfl
    refine (congrArg (fun v : Vector Meter 16 => v[m]) hx).trans ?_
    refine (State.setMeter_at s n m _).trans ?_
    by_cases hnm : n = m
    · subst hnm; simp
    · rw [if_neg hnm, if_neg (by simpa using hnm)]

/-- Classification, the copies and the charge form the verdict of R14. -/
theorem formVerdict_classified (l : Latched) (buf : List Byte) (s : State) :
    Classified (keyOf l buf) s (formVerdict l buf s).1 (formVerdict l buf s).2 := by
  obtain ⟨x0, x1, x2, x3, ef⟩ := hitState_frame (findHit (keyOf l buf) s) s
  have hact : (hitState (findHit (keyOf l buf) s) s).actions = s.actions := by rw [ef]
  have hrules : (hitState (findHit (keyOf l buf) s) s).rules = s.rules := by rw [ef]
  have hmet : (hitState (findHit (keyOf l buf) s) s).meters = s.meters := by rw [ef]
  have hcf := chargeAction_frame (formVerdict l buf s).2.act (cellSize l.header.length)
    (hitState (findHit (keyOf l buf) s) s)
  have hst : (formVerdict l buf s).1 = (chargeAction (formVerdict l buf s).2.act (cellSize l.header.length)
      (hitState (formVerdict l buf s).2.entry s)).1 := rfl
  have hentry : (formVerdict l buf s).2.entry = findHit (keyOf l buf) s := rfl
  constructor
  · rfl
  · rfl
  · change selectAction _ (hitState (findHit (keyOf l buf) s) s) = _
    unfold selectAction
    rw [hact]
    rfl
  · change copyRule (formVerdict l buf s).2.act (hitState (findHit (keyOf l buf) s) s) = _
    unfold copyRule
    rw [hrules]
    generalize (formVerdict l buf s).2.act.rule = r
    cases r <;> rfl
  · change (chargeAction (formVerdict l buf s).2.act _ (hitState (findHit (keyOf l buf) s) s)).2 = _
    unfold chargeAction
    cases (formVerdict l buf s).2.act.meter with
    | none => rfl
    | some m =>
      change (chargeMeter m _ _).2 = _
      rw [(chargeMeter_eq m _ _).1, hmet]
      rfl
  · rfl
  · intro i
    obtain ⟨_, _, _, _, e⟩ := hcf
    have he : (formVerdict l buf s).1.entries = (hitState (findHit (keyOf l buf) s) s).entries := by
      rw [hst, hentry, e]
    refine (congrArg (fun v : Vector Entry 64 => v[i]) he).trans ?_
    exact hitState_entries _ s i
  · intro m
    refine (congrArg (fun u : State => u.meters[m]) hst).trans ?_
    rw [chargeAction_meters, hentry]
    have hmm : (hitState (findHit (keyOf l buf) s) s).meters[m] = s.meters[m] :=
      congrArg (fun v : Vector Meter 16 => v[m]) hmet
    rw [hmm]
    rfl
  · exact hitState_reports (formVerdict l buf s).2 (cellSize l.header.length) s
  · obtain ⟨_, _, _, _, e⟩ := hcf
    rw [hst, hentry, e, ef]

/-! ### The reception plays no part in classification -/

theorem occur_tailRx (k : ReportKind) (n : Nat) (x : TailRx) (s : State) :
    occur k n { s with tailRx := x } = { occur k n s with tailRx := x } := by
  unfold occur
  have h1 : State.accepts k { s with tailRx := x } = s.accepts k := rfl
  have h2 : State.reportCount { s with tailRx := x } = s.reportCount := rfl
  rw [h1, h2]
  split
  · dsimp only
    split
    · rfl
    · split <;> rfl
  · rfl

theorem hitState_tailRx (hit : Option (Fin 64)) (x : TailRx) (s : State) :
    hitState hit { s with tailRx := x } = { hitState hit s with tailRx := x } := by
  cases hit with
  | none => rfl
  | some i =>
    dsimp only [hitState]
    rw [recordHit_eq, recordHit_eq]
    dsimp only
    split
    · exact occur_tailRx .entryFirstHit i.val x (s.setEntry i (hitEntry s.entries[i]))
    · rfl

theorem chargeMeter_tailRx (m : Fin 16) (size : Nat) (x : TailRx) (s : State) :
    chargeMeter m size { s with tailRx := x } =
      ({ (chargeMeter m size s).1 with tailRx := x }, (chargeMeter m size s).2) := by
  refine Prod.ext ?_ (by rw [(chargeMeter_eq _ _ _).1, (chargeMeter_eq _ _ _).1])
  dsimp only
  rw [(chargeMeter_eq _ _ _).2, (chargeMeter_eq _ _ _).2]
  dsimp only
  split
  · exact occur_tailRx .meterExceeded m.val x (s.setMeter m (chargedMeter size s.meters[m]))
  · rfl

theorem chargeAction_tailRx (a : Action) (size : Nat) (x : TailRx) (s : State) :
    chargeAction a size { s with tailRx := x } =
      ({ (chargeAction a size s).1 with tailRx := x }, (chargeAction a size s).2) := by
  unfold chargeAction
  cases a.meter with
  | none => rfl
  | some m => exact chargeMeter_tailRx m size x s

/-- The verdict of a cell does not depend on the reception state it is formed in. -/
theorem formVerdict_tailRx (l : Latched) (buf : List Byte) (x : TailRx) (s : State) :
    formVerdict l buf { s with tailRx := x } =
      ({ (formVerdict l buf s).1 with tailRx := x }, (formVerdict l buf s).2) := by
  have h := hitState_tailRx (findHit (keyOf l buf) s) x s
  have e : ∀ u : State, formVerdict l buf u =
      (let a := selectAction (match findHit (keyOf l buf) u with
          | some i => some u.entries[i].action
          | none => u.settings.missAction) (hitState (findHit (keyOf l buf) u) u)
       let c := chargeAction a (cellSize l.header.length) (hitState (findHit (keyOf l buf) u) u)
       (c.1, ⟨findHit (keyOf l buf) u, (match findHit (keyOf l buf) u with
          | some i => some u.entries[i].action
          | none => u.settings.missAction), a, copyRule a (hitState (findHit (keyOf l buf) u) u), c.2,
          verdictClass a c.2⟩)) := fun _ => rfl
  have hf : findHit (keyOf l buf) { s with tailRx := x } = findHit (keyOf l buf) s := rfl
  rw [e, e, hf, h]
  dsimp only
  have hs : ∀ sel : Option (Fin 32), selectAction sel { hitState (findHit (keyOf l buf) s) s with tailRx := x } =
      selectAction sel (hitState (findHit (keyOf l buf) s) s) := fun _ => rfl
  rw [hs, chargeAction_tailRx]
  rfl

/-! ### The end of a cell -/

/-- The payload check of a cell, said in the terms of R102. -/
theorem payloadPasses_iff (n : Nat) (bad : Bool) (len : Nat) (buf : List Byte) :
    payloadPasses n bad len buf = true ↔ PayloadGood n bad len buf := by
  unfold payloadPasses
  have hw : argWord buf (6 + len) = argNat buf (6 + len) * 256 + argNat buf (7 + len) := by
    unfold argWord; rw [show 6 + len + 1 = 7 + len by omega]
  rw [hw]
  have hp : payloadOf buf len = (buf.drop 6).take len := rfl
  rw [hp]
  constructor
  · intro h
    rw [Bool.and_eq_true] at h
    obtain ⟨h1, h2⟩ := h
    by_cases hh : len = 0
    · rw [if_pos hh] at h2
      exact ⟨by simpa using h1, by simpa [hh] using h2, by omega⟩
    · rw [if_neg hh, Bool.and_eq_true] at h2
      exact ⟨by simpa using h1, by simpa [hh] using h2.1, fun _ => by simpa using h2.2⟩
  · rintro ⟨h1, h2, h3⟩
    rw [Bool.and_eq_true]
    refine ⟨by simpa using h1, ?_⟩
    by_cases hh : len = 0
    · rw [if_pos hh]; simpa [hh] using h2
    · rw [if_neg hh, Bool.and_eq_true]; exact ⟨by simpa [hh] using h2, by simpa using h3 (by omega)⟩

/-- An entry that enters EMPTY leaves the table alone otherwise (R8, R33). -/
theorem emptyEntry_left (i : Fin 64) (s : State) (hi : s.entries[i].state ≠ .empty) :
    EntriesLeft s (emptyEntry i s) := by
  have hc := ChangesEntry.empty i s hi
  refine ⟨?_, hc.rest⟩
  intro a
  rw [hc.actions]
  have : emptied a s (emptyEntry i s) = if leaves a s.entries[i] Entry.cleared then 1 else 0 := by
    unfold emptied
    have hj : ∀ j : Fin 64, (s.entries[j].state != .empty && s.entries[j].action == a &&
        (emptyEntry i s).entries[j].state == .empty) =
          (decide (j = i) && leaves a s.entries[i] Entry.cleared) := by
      intro j
      rw [hc.entries]
      by_cases hij : j = i
      · subst hij; simp [leaves]
      · rw [if_neg (Ne.symm hij)]
        simp only [hij, decide_false, Bool.false_and]
        cases s.entries[j].state <;> simp
    rw [List.countP_congr (q := fun j => decide (j = i) && leaves a s.entries[i] Entry.cleared)
      (by intro j _; rw [hj])]
    cases leaves a s.entries[i] Entry.cleared
    · simp
    · simp only [Bool.and_true, if_true]
      have := List.count_eq_one_of_mem (List.nodup_finRange 64) (List.mem_finRange i)
      rw [← this, List.count]; rfl
  rw [this]

theorem EntriesLeft.refl (s : State) : EntriesLeft s s := by
  refine ⟨fun a => ?_, rfl⟩
  have : emptied a s s = 0 := by
    unfold emptied; rw [List.countP_eq_zero]; intro x _
    cases s.entries[x].state <;> simp
  rw [this]; rfl

/-- The end of a reception releases the held entry (R12). -/
theorem releaseHeld_released (s : State) : Released s.held s (releaseHeld s) := by
  unfold releaseHeld
  cases hv : s.held with
  | none => exact ⟨EntriesLeft.refl s, by simp⟩
  | some i =>
    dsimp only
    split <;> rename_i hi
    · refine ⟨emptyEntry_left i s (by rw [hi]; decide), fun j => ?_⟩
      rw [(ChangesEntry.empty i s (by rw [hi]; decide)).entries]
      by_cases hij : i = j
      · subst hij; simp [-Fin.getElem_fin, hi]
      · simp [hij]
    · refine ⟨EntriesLeft.refl s, fun j => ?_⟩
      rw [if_neg]
      rintro ⟨h1, h2⟩
      have := Option.some.inj h1
      subst this
      exact hi h2

/-- A hit is a LIVE entry that matches (R10). -/
theorem findHit_live {k : Key} {s : State} {i : Fin 64} (h : findHit k s = some i) :
    s.entries[i].state = .live := by
  have := List.find?_some h
  unfold hitsAt at this
  rw [Bool.and_eq_true] at this
  exact eq_of_beq this.1

/-- R26: the retirement of the held LIVE entry and its release leave the same part in either order, with the entry
EMPTY: RETIRING and then released, or released and then retired. -/
theorem retireEntry_releaseHeld_comm {i : Fin 64} {s : State} (hh : s.held = some i)
    (hl : s.entries[i].state = .live) :
    { releaseHeld (retireEntry i s) with tailRx := .idle } = retireEntry i { releaseHeld s with tailRx := .idle } ∧
      (releaseHeld (retireEntry i s)).entries[i] = Entry.cleared := by
  have h1 : retireEntry i s = s.setEntry i { s.entries[i] with state := .retiring } := by
    unfold retireEntry
    rw [hl]
    exact if_pos hh
  have h2 : releaseHeld s = s := by
    unfold releaseHeld
    rw [hh]
    exact if_neg (by rw [hl]; decide)
  have h3 : releaseHeld (s.setEntry i { s.entries[i] with state := .retiring }) =
      dropRef s.entries[i].action (s.setEntry i Entry.cleared) := by
    have hs : State.held (s.setEntry i { s.entries[i] with state := .retiring }) = some i := hh
    unfold releaseHeld
    rw [hs]
    simp [emptyEntry, State.setEntry, dropRef]
  have h4 : retireEntry i { s with tailRx := .idle } =
      { dropRef s.entries[i].action (s.setEntry i Entry.cleared) with tailRx := .idle } := by
    have hs : State.entries { s with tailRx := .idle } = s.entries := rfl
    unfold retireEntry emptyEntry
    rw [hs, hl]
    exact if_neg (by simp [State.held])
  rw [h1, h2, h3, h4]
  exact ⟨rfl, by simp [dropRef, State.setEntry, State.setRecord]⟩

end Sys2Proof.Machine
end

