-- ==== Sys2Proof/Laws/Ports.lean ====
section
/-! SUPPORT. What a port does to the cells it carries, said once: how a cell in reception fails or is aborted, how a
transmission is cut short, and what leaving UP leaves. -/

namespace Sys2Proof.Machine

/-- The release of the held entry does not look at the counters. -/
theorem releaseHeld_count (c : Counter) (s : State) : releaseHeld (s.count c) = (releaseHeld s).count c := by
  have he : ∀ i : Fin 64, emptyEntry i (s.count c) = (emptyEntry i s).count c := by
    intro i
    unfold emptyEntry
    have h : (s.count c).entries = s.entries := rfl
    rw [h]
    cases s.entries[i].state <;> rfl
  have hh : (s.count c).held = s.held := held_congr rfl
  unfold releaseHeld
  rw [hh]
  cases s.held with
  | none => rfl
  | some i =>
    dsimp only
    have h : (s.count c).entries = s.entries := rfl
    rw [h, he]
    split <;> rfl

/-- A failed reception in one equation: its entry released, its buffer freed, its counter raised (R100, R102, R107). -/
theorem failReception_eq (c : Counter) (s : State) :
    Released s.held s (releaseHeld s) ∧ failReception c s = { releaseHeld s with
      freeBuffers := s.freeBuffers + 1, tailRx := .idle, stats := s.stats.raise c } := by
  refine ⟨releaseHeld_released s, ?_⟩
  unfold failReception freeReception
  rw [releaseHeld_count]
  obtain ⟨_, _, h⟩ := releaseHeld_frame s
  rw [h]
  rfl

/-- A reception without a verdict holds no entry (R12). -/
theorem releaseHeld_of_none {s : State} (h : s.held = none) : releaseHeld s = s := by
  unfold releaseHeld
  rw [h]

/-- The release right after a classification changes nothing: the entry just hit is LIVE (R11, R12). -/
theorem releaseHeld_reachVerdict (r : Reception) (l : Latched) (s : State) (hl : l.verdict = none) :
    releaseHeld (reachVerdict r l s).1 = (reachVerdict r l s).1 := by
  have he : (reachVerdict r l s).1 = { (formVerdict l r.buf s).1 with
      tailRx := .receiving { r with hdr := some { l with verdict := some (formVerdict l r.buf s).2 } } } := by
    unfold reachVerdict
    rw [hl]
  have hc := formVerdict_classified l r.buf s
  rw [he]
  unfold releaseHeld
  show (match (formVerdict l r.buf s).2.entry with
    | some i => _
    | none => _) = _
  cases hv : (formVerdict l r.buf s).2.entry with
  | none => rfl
  | some i =>
    dsimp only
    have h1 : s.entries[i].state = .live := findHit_live (by rw [← hc.entry, hv])
    have h2 := hc.hits i
    rw [hv, if_pos rfl] at h2
    rw [if_neg]
    intro hr
    have h3 : (formVerdict l r.buf s).1.entries[i].state = .live := by rw [h2]; exact h1
    exact absurd (h3.symm.trans hr) (by decide)

/-- The Tail cell in reception fails as R98, R100 and R189 say. -/
theorem tailFail_failed (s : State) : CellFailed .tail s (tailFail s) := by
  unfold CellFailed tailFail tailEnd
  cases hx : s.tailRx with
  | idle => rfl
  | discarding => rfl
  | receiving r =>
    obtain ⟨buf, hdr⟩ := r
    dsimp only
    cases hdr with
    | none =>
      refine ⟨fun _ => ?_, fun l h => (by cases h)⟩
      have hh : s.held = none := by unfold State.held; rw [hx]; rfl
      obtain ⟨_, h⟩ := failReception_eq .headerBad s
      dsimp only
      rw [h, releaseHeld_of_none hh]
      rfl
    | some l =>
      refine ⟨fun h => (by cases h), fun l' h => ?_⟩
      cases h
      dsimp only
      unfold endReception
      constructor
      · intro v hv
        have hh : s.held = v.entry := by unfold State.held; rw [hx]; simp [hv]
        have hr : reachVerdict ⟨buf, some l⟩ l s = (s, v) := by unfold reachVerdict; rw [hv]
        obtain ⟨h1, h2⟩ := failReception_eq .payloadBad s
        rw [hr]
        rw [hh] at h1
        exact ⟨_, h1, h2⟩
      · intro hv
        have hc := formVerdict_classified l buf s
        refine ⟨_, _, hc, ?_⟩
        obtain ⟨_, h2⟩ := failReception_eq .payloadBad (reachVerdict ⟨buf, some l⟩ l s).1
        have hf : (formVerdict l buf s).1.freeBuffers = s.freeBuffers := by rw [hc.rest]
        dsimp only
        rw [if_neg (by decide), h2, releaseHeld_reachVerdict _ _ _ hv]
        have he : (reachVerdict ⟨buf, some l⟩ l s).1 = { (formVerdict l buf s).1 with
            tailRx := .receiving ⟨buf, some { l with verdict := some (formVerdict l buf s).2 }⟩ } := by
          unfold reachVerdict
          rw [hv]
        rw [he, ← hf]
        rfl

/-- The Head cell in reception fails as R189 and R193 say. -/
theorem headFail_failed (s : State) : CellFailed .head s (headEnd (fun _ _ => false) s) := by
  unfold CellFailed headEnd
  cases s.headRx with
  | idle => rfl
  | discarding => rfl
  | receiving buf =>
    dsimp only
    split <;> rfl

/-- A failed cell at either port (R189). -/
theorem failEvent_failed (p : Side) (s : State) : CellFailed p s (failEvent p s) := by
  cases p
  · exact headFail_failed s
  · exact tailFail_failed s

/-- After a failed cell the receive side of the port is IDLE (R189). -/
theorem failEvent_idle (p : Side) (s : State) :
    (p = .head → (failEvent p s).headRx = .idle) ∧ (p = .tail → (failEvent p s).tailRx = .idle) := by
  have hf := failEvent_failed p s
  cases p with
  | head =>
    refine ⟨fun _ => ?_, fun h => (by cases h)⟩
    unfold CellFailed at hf
    cases hx : s.headRx <;> simp only [hx] at hf <;> rw [hf]
    exact hx
  | tail =>
    refine ⟨fun h => (by cases h), fun _ => ?_⟩
    unfold CellFailed at hf
    cases hx : s.tailRx with
    | idle => simp only [hx] at hf; rw [hf]; exact hx
    | discarding => simp only [hx] at hf; rw [hf]
    | receiving r =>
      obtain ⟨buf, hdr⟩ := r
      simp only [hx] at hf
      cases hdr with
      | none => rw [hf.1 rfl]
      | some l =>
        obtain ⟨h1, h2⟩ := hf.2 l rfl
        cases hv : l.verdict with
        | some v => obtain ⟨w, _, h⟩ := h1 v hv; rw [h]
        | none => obtain ⟨w, v, _, h⟩ := h2 hv; rw [h]

/-- Start-of-cell at a port whose receive side is IDLE (R97, R193). -/
theorem beginCell_begun (p : Side) (s : State) (hh : p = .head → s.headRx = .idle)
    (ht : p = .tail → s.tailRx = .idle) : beginCell p s = cellBegun p s := by
  cases p with
  | head =>
    unfold beginCell startEvent headStartOfCell cellBegun
    have : (s.setPort .head { s.port .head with position := .inCell, cellBytes := 0, cellBad := false }).headRx =
        .idle := hh rfl
    simp only [this]
    rfl
  | tail =>
    unfold beginCell startEvent tailStartOfCell cellBegun
    have : (s.setPort .tail { s.port .tail with position := .inCell, cellBytes := 0, cellBad := false }).tailRx =
        .idle := ht rfl
    simp only [this]
    rfl

/-- The cell in reception at a port is aborted as R107 and R193 say. -/
theorem abortEvent_aborted (p : Side) (s : State) : CellAborted p s (abortEvent p s) := by
  cases p with
  | head =>
    unfold CellAborted abortEvent headAbort
    cases s.headRx <;> rfl
  | tail =>
    unfold CellAborted abortEvent tailAbort
    cases s.tailRx with
    | idle => rfl
    | discarding => rfl
    | receiving r => exact ⟨_, failReception_eq .rxAborted s⟩

/-- The symbols that had left of a cell cut short are the first of them, not all (R183; log 19). -/
theorem cutSymbols_take (k : Nat) (cell : Cell) : ∃ n, n < cell.length + 2 ∧
    cutSymbols k cell = (Symbol.startDelimiter :: cell.map Symbol.data ++ [Symbol.endDelimiter]).take n := by
  have h : (cellSymbols cell).length = cell.length + 2 := by simp [cellSymbols]
  refine ⟨_, ?_, rfl⟩
  rw [h]
  exact Nat.mod_lt _ (by omega)

/-- A device reset leaves the state of the table after R177. -/
theorem deviceReset_after (s : State) : deviceReset s = afterDeviceReset s := by
  rw [deviceReset_eq]
  unfold afterDeviceReset deviceResetValues discardReception detachTransmission
  rfl

/-- The reply in transmission is the oldest, and it leaves the queue (R126, R160, R175). -/
theorem endReply_oldest {r : Reply} {rest : List Reply} {s : State} (h : s.replies = r :: rest)
    (hr : r.inTransmission = true) (hrest : ∀ x ∈ rest, x.inTransmission = false) :
    endReply s = if r.resetMark then afterDeviceReset { s with replies := rest } else { s with replies := rest } := by
  have h1 : s.replies.find? (fun r => r.inTransmission) = some r := by rw [h, List.find?_cons_of_pos hr]
  have h2 : s.replies.filter (fun r => !r.inTransmission) = rest := by
    rw [h, List.filter_cons_of_neg (by simp [hr])]
    exact List.filter_eq_self.2 (fun x hx => by simp [hrest x hx])
  unfold endReply
  rw [h1, h2]
  dsimp only
  rw [deviceReset_after]

/-- The source of a cell is told of its transmit-abort as R125 says. -/
theorem headTxEnd_abort {src : TxSource} {cell : Cell} {s : State} (h : s.headTx = .sending src cell) :
    AbortTold src { s with headTx := .idle, headCut := cutSymbols s.freeIndex cell, freeIndex := s.freeIndex + 1 }
      (headTxEnd .abort s) := by
  unfold headTxEnd
  rw [h]
  cases src with
  | urgent =>
    unfold AbortTold endUrgent recordCut
    cases hu : s.urgent with
    | nil => simp
    | cons c rest => simp; rfl
  | normal =>
    unfold AbortTold endNormal recordCut
    cases hu : s.normal with
    | nil => simp
    | cons c rest => simp; rfl
  | reply => exact fun r rest hr hm hrest => endReply_oldest hr hm hrest
  | report q => rfl
  | detached => rfl

/-- The transmission of a port is cut short as R125, R183 and R196 say. -/
theorem abortTransmission_cut (p : Side) (s : State) : TransmissionCut p s (abortTransmission p s) := by
  cases p with
  | head =>
    unfold TransmissionCut abortTransmission
    cases hx : s.headTx with
    | idle => simp [headTxEnd, hx]
    | sending src cell =>
      obtain ⟨n, hn, he⟩ := cutSymbols_take s.freeIndex cell
      exact ⟨n, hn, by rw [← he]; exact headTxEnd_abort hx⟩
  | tail =>
    unfold TransmissionCut abortTransmission tailTxEnd
    cases hx : s.tailTx with
    | idle => rfl
    | sending =>
      intro cell rest hq
      obtain ⟨n, hn, he⟩ := cutSymbols_take s.freeIndex cell
      refine ⟨n, hn, ?_⟩
      rw [← he, hq]
      rfl

/-- The parts of leaving UP make a realignment (R186). -/
theorem Realigned.of_parts {p : Side} {after : LinkState} {s s1 : State}
    (h1 : s1 = s.setPort p { s.port p with
      link := after, run := if after = .aligning then 0 else (s.port p).run, upPin := false }) :
    Realigned p after s (occur .linkChanged (linkSubject p) (abortTransmission p
      (if (s.port p).position = .inCell then abortEvent p s1 else s1))) :=
  ⟨s1, if (s.port p).position = .inCell then abortEvent p s1 else s1, _, h1,
    fun h => by rw [if_pos h]; exact abortEvent_aborted p s1, fun h => if_neg h, abortTransmission_cut p _,
    by cases p <;> rfl⟩

/-- Leaving UP is the realignment of R186. -/
theorem leaveUp_realigned (p : Side) (after : LinkState) (s : State) : Realigned p after s (leaveUp p after s) :=
  Realigned.of_parts rfl

/-! ### What the parts of an event leave alone -/

/-- The end of a reply's transmission removes it, and with the reset mark resets the device (R126, R175). -/
theorem endReply_cases (s : State) : ∃ rs, endReply s = { s with replies := rs } ∨
    endReply s = afterDeviceReset { s with replies := rs } := by
  unfold endReply
  split
  · dsimp only
    split
    · exact ⟨_, .inr (deviceReset_after _)⟩
    · exact ⟨_, .inl rfl⟩
  · exact ⟨s.replies, .inl rfl⟩

/-- The end of a Head transmission leaves the transmitter IDLE and the ports and the downstream path alone (R124,
R125). -/
theorem headTxEnd_keeps (e : TxEnd) (s : State) :
    (headTxEnd e s).headPort = s.headPort ∧ (headTxEnd e s).tailPort = s.tailPort ∧
    (headTxEnd e s).downQueue = s.downQueue ∧ (headTxEnd e s).tailTx = s.tailTx ∧
    (headTxEnd e s).headTx = .idle := by
  unfold headTxEnd
  split
  · exact ⟨rfl, rfl, rfl, rfl, by assumption⟩
  · rename_i src cell _
    obtain ⟨a, b, c, d, he⟩ : ∃ a b c d, recordCut .head e cell s =
        { s with headCut := a, tailCut := b, freeIndex := c, headTx := d } := by
      unfold recordCut; cases e <;> exact ⟨_, _, _, _, rfl⟩
    rw [he]
    cases src
    · dsimp only
      obtain ⟨rs, h | h⟩ := endReply_cases { s with headCut := a, tailCut := b, freeIndex := c, headTx := .idle }
      all_goals rw [h]; exact ⟨rfl, rfl, rfl, rfl, rfl⟩
    · unfold endUrgent; dsimp only; split <;> exact ⟨rfl, rfl, rfl, rfl, rfl⟩
    · exact ⟨rfl, rfl, rfl, rfl, rfl⟩
    · unfold endNormal; dsimp only; split <;> exact ⟨rfl, rfl, rfl, rfl, rfl⟩
    · exact ⟨rfl, rfl, rfl, rfl, rfl⟩

/-- The end of a Tail transmission leaves the transmitter IDLE and the upstream side alone (R196). -/
theorem tailTxEnd_keeps (e : TxEnd) (s : State) :
    (tailTxEnd e s).tailPort = s.tailPort ∧ (tailTxEnd e s).headPort = s.headPort ∧
    (tailTxEnd e s).urgent = s.urgent ∧ (tailTxEnd e s).normal = s.normal ∧ (tailTxEnd e s).replies = s.replies ∧
    (tailTxEnd e s).sent = s.sent ∧ (tailTxEnd e s).headTx = s.headTx ∧ (tailTxEnd e s).tailTx = .idle := by
  have hi : (tailTxEnd e s).tailTx = .idle := by
    unfold tailTxEnd
    split
    · assumption
    · rfl
  obtain ⟨_, _, _, _, _, ht⟩ := tailTxEnd_frame e s
  refine ⟨?_, ?_, ?_, ?_, ?_, ?_, ?_, hi⟩ <;> rw [ht]

/-- A failed cell leaves its port as it stands (R189). -/
theorem failEvent_port (p : Side) (s : State) : (failEvent p s).port p = s.port p := by
  have hf := failEvent_failed p s
  cases p with
  | head =>
    unfold CellFailed at hf
    cases hx : s.headRx <;> simp only [hx] at hf <;> rw [hf] <;> rfl
  | tail =>
    obtain ⟨_, _, _, _, _, _, _, _, _, _, _, _, _, _, h⟩ := tailEnd_frame (fun _ _ => false) s
    show (tailEnd _ s).tailPort = _
    rw [h]; rfl

/-- An occurrence reaches the WAITING records, the losses and reports_lost alone (R137). -/
theorem occur_reaches (k : ReportKind) (n : Nat) (s : State) : occur k n s = { s with
    waiting := (occur k n s).waiting, lostSinceSent := (occur k n s).lostSinceSent,
    stats := { s.stats with reportsLost := (occur k n s).stats.reportsLost } } := by
  unfold occur
  repeat' split
  all_goals rfl

/-- What an occurrence leaves depends on the report unit, its settings and the line time alone (R137). -/
theorem occur_lost_congr (k : ReportKind) (n : Nat) (s u : State) (h1 : u.settings = s.settings)
    (h2 : u.waiting = s.waiting) (h3 : u.sent = s.sent) (h4 : u.lineTime = s.lineTime)
    (h5 : u.lostSinceSent = s.lostSinceSent) (h6 : u.stats.reportsLost = s.stats.reportsLost) :
    (occur k n u).waiting = (occur k n s).waiting ∧ (occur k n u).lostSinceSent = (occur k n s).lostSinceSent ∧
      (occur k n u).stats.reportsLost = (occur k n s).stats.reportsLost := by
  have ha : u.accepts k = s.accepts k := by unfold State.accepts; rw [h1]
  have hb : u.reportCount = s.reportCount := by unfold State.reportCount; rw [h2, h3]
  unfold occur
  rw [ha, hb, h2]
  repeat' split
  all_goals simp_all [State.count, Stats.raise]

/-- Bin counting reaches the bins, the rules and what its occurrence reaches alone (R63 to R68). -/
theorem countVerdict_reaches (v : Verdict) (h : Header) (buf : List Byte) (s : State) :
    countVerdict v h buf s = { s with
    bins := (countVerdict v h buf s).bins, rules := (countVerdict v h buf s).rules,
    waiting := (countVerdict v h buf s).waiting, lostSinceSent := (countVerdict v h buf s).lostSinceSent,
    stats := { s.stats with reportsLost := (countVerdict v h buf s).stats.reportsLost } } := by
  unfold countVerdict
  split
  · unfold countCell
    dsimp only
    repeat' split
    all_goals first
      | rfl
      | (unfold addToBin; dsimp only; split
         · rw [occur_reaches]; rfl
         · rfl)
  · rfl

/-- The port plays no part in an occurrence. -/
theorem occur_tailPort (k : ReportKind) (n : Nat) (x : Port) (s : State) :
    occur k n { s with tailPort := x } = { occur k n s with tailPort := x } := by
  unfold occur
  have h1 : State.accepts k { s with tailPort := x } = s.accepts k := rfl
  have h2 : State.reportCount { s with tailPort := x } = s.reportCount := rfl
  rw [h1, h2]
  repeat' split
  all_goals rfl

/-- The port plays no part in the addition to a bin. -/
theorem addToBin_tailPort (b n : Nat) (x : Port) (s : State) :
    addToBin b n { s with tailPort := x } = { addToBin b n s with tailPort := x } := by
  have h : addToBin b n { s with tailPort := x } =
      if s.bin b ≠ countMax ∧ (s.setBin b (satAdd (s.bin b) n)).bin b = countMax then
        occur .binSaturated b { s.setBin b (satAdd (s.bin b) n) with tailPort := x }
      else { s.setBin b (satAdd (s.bin b) n) with tailPort := x } := rfl
  rw [h, occur_tailPort]
  unfold addToBin
  dsimp only
  split <;> rfl

/-- The port plays no part in bin counting. -/
theorem countVerdict_tailPort (v : Verdict) (h : Header) (buf : List Byte) (x : Port) (s : State) :
    countVerdict v h buf { s with tailPort := x } = { countVerdict v h buf s with tailPort := x } := by
  unfold countVerdict
  cases v.rule with
  | none => rfl
  | some nc =>
    obtain ⟨n, c⟩ := nc
    dsimp only
    unfold countCell
    dsimp only
    split
    · rfl
    · split
      · rfl
      · cases sourceValue c h buf with
        | none => rfl
        | some w =>
          exact addToBin_tailPort _ _ x
            (s.setRule n { s.rules[n] with counted := satAdd s.rules[n].counted 1 })

end Sys2Proof.Machine
end

