-- ==== Sys2Proof/Laws/Requests.lean ====
section
/-! SUPPORT. The taking of a request, said once: what a request command does, what an accepted request and a heard
broadcast do, and that an executed request reaches its owning rule. -/

namespace Sys2Proof.Machine

/-- A request command is the taking of a request of its kind, with the decisions at its close (log 2). -/
theorem exec_requestOf (k : Kind) (f : Form) (tag : Byte) (args : List Byte) (s : State)
    (h : s.resetHeld = false) :
    exec (requestOf k f tag args) s = .next (settle (takeRequest f k.code tag args s)) := by
  have hk : takeKind k f tag args s = .next (settle (takeRequest f k.code tag args s)) := by
    unfold takeKind unlessHeld
    rw [if_neg (by simp [h])]
  cases k <;> exact hk

/-- A kind is found by its code (R215). -/
@[simp] theorem kindOf_code (k : Kind) : kindOf k.code = some k := by cases k <;> decide

/-- No record of the reply memory answers an accepted request (R154, case 3). -/
theorem stored_eq_none {code tag : Byte} {s : State} (h : ∀ m ∈ s.memory, ¬(m.tag = tag ∧ m.kind = code)) :
    stored code tag s = none := by
  unfold stored
  rw [List.find?_eq_none]
  intro m hm
  have := h m hm
  simpa using this

/-- An accepted request is executed (R154, case 4). -/
theorem takeAddressed_accepted {code tag : Byte} {args : List Byte} {s : State} (h : Accepts code tag s) :
    takeAddressed code tag args s = executeAddressed code tag args s := by
  have hroom : ¬Config.replyPlaces ≤ s.replies.length := by
    have := h.room
    simp only [Config.replyPlaces]
    omega
  unfold takeAddressed
  rw [if_neg (by simp [h.noReset]), if_neg hroom, stored_eq_none h.fresh]

/-- A reply without the reset mark leaves the answered state (R156, R157, R159). -/
theorem reply_eq_answered (code tag : Byte) (a : Answer) :
    reply code tag false a = answered code tag a.status a.results a.st := rfl

/-- An accepted request other than DEVICE_RESET leaves the answered state of its execution. -/
theorem takeRequest_accepted {k : Kind} {tag : Byte} {args : List Byte} {s : State} (h : Accepts k.code tag s)
    (hk : k ≠ .deviceReset) :
    takeRequest .addressed k.code tag args s =
      answered k.code tag (executeRequest k.code args s).status (executeRequest k.code args s).results
        (executeRequest k.code args s).st := by
  have hc : k.code ≠ Kind.deviceReset.code := by
    intro h'
    have := congrArg kindOf h'
    rw [kindOf_code, kindOf_code] at this
    exact hk (Option.some.inj this)
  change takeAddressed k.code tag args s = _
  rw [takeAddressed_accepted h]
  unfold executeAddressed
  rw [if_neg (fun hh => hc hh.1), ← reply_eq_answered]
  rw [beq_false_of_ne hc]

/-- An execution reaches the owning rule of its kind, unless the payload is too short (R155). -/
theorem executeRequest_code (k : Kind) (args : List Byte) (s : State) :
    executeRequest k.code args s =
      if args.length + 2 < k.least then ⟨s, .badLength, [byteOf k.least]⟩ else ownerAnswer k args s := by
  unfold executeRequest
  rw [kindOf_code]

/-- An execution that the payload is long enough for is the owning rule's answer. -/
theorem executeRequest_long {k : Kind} {args : List Byte} (s : State) (h : k.least ≤ args.length + 2) :
    executeRequest k.code args s = ownerAnswer k args s := by
  rw [executeRequest_code, if_neg (by omega)]

/-- An accepted request that its payload is long enough for leaves the answered state of its owning rule. -/
theorem exec_accepted {k : Kind} {tag : Byte} {args : List Byte} {s : State} (h : Accepts k.code tag s)
    (hk : k ≠ .deviceReset) (hl : k.least ≤ args.length + 2) :
    exec (requestOf k .addressed tag args) s =
      .next (settle (answered k.code tag (ownerAnswer k args s).status (ownerAnswer k args s).results
        (ownerAnswer k args s).st)) := by
  rw [exec_requestOf _ _ _ _ _ h.running, takeRequest_accepted h hk, executeRequest_long s hl]

/-- A broadcast of one of the six kinds other than DEVICE_RESET leaves the state of its execution, counted
(R163). -/
theorem exec_heard {k : Kind} {tag : Byte} {args : List Byte} {s : State} (h : Hears s)
    (hb : k.broadcast = true) (hk : k ≠ .deviceReset) (hl : k.least ≤ args.length + 2) :
    exec (requestOf k .broadcast tag args) s =
      .next (settle (if (ownerAnswer k args s).status = .ok then heard (ownerAnswer k args s).st
        else (heard (ownerAnswer k args s).st).count .broadcastFailed)) := by
  rw [exec_requestOf _ _ _ _ _ h.running]
  change Host.Outcome.next (settle (takeBroadcast k.code args s)) = _
  unfold takeBroadcast
  rw [if_neg (by simp [h.noReset]), kindOf_code]
  simp only [hb, if_true]
  unfold executeBroadcast
  rw [if_neg hk, executeRequest_long s hl]
  rfl

end Sys2Proof.Machine
end

