-- ==== Sys2Proof/WellFormed.lean ====
section
/-! DEFINITION. Which commands can be spelled on the line: a request's payload is at most 48 bytes. -/

namespace Sys2Proof

/-- The kind, the tag and the arguments of a request fit the 48 payload bytes of a cell (00_scope, The Cell
Line; R215). -/
def argsFit (args : List Byte) : Bool := args.length ≤ 46

/-- A command that a cell or an event can spell. Commands that carry no arguments are always well formed. -/
def Instr.wellFormed : Instr → Bool
  | .powerOnReset => true
  | .signalDetected _ => true
  | .lossOfSignal _ => true
  | .alignmentWord _ => true
  | .dataByte _ _ => true
  | .codeViolation _ => true
  | .startOfCell => true
  | .headerComplete _ => true
  | .keyComplete _ => true
  | .endOfCell => true
  | .headStartOfCell => true
  | .headHeaderComplete _ => true
  | .headEndOfCell => true
  | .transmitStart => true
  | .transmitComplete => true
  | .tailTransmitStart => true
  | .tailTransmitComplete => true
  | .refillExpiry => true
  | .reportTimerExpiry _ => true
  | .ping _ _ args => argsFit args
  | .identRead _ _ args => argsFit args
  | .addressAssign _ _ args => argsFit args
  | .settingWrite _ _ args => argsFit args
  | .settingRead _ _ args => argsFit args
  | .entryWrite _ _ args => argsFit args
  | .entryRead _ _ args => argsFit args
  | .batchActivate _ _ args => argsFit args
  | .entryRetire _ _ args => argsFit args
  | .batchRetire _ _ args => argsFit args
  | .batchDiscard _ _ args => argsFit args
  | .actionWrite _ _ args => argsFit args
  | .actionRead _ _ args => argsFit args
  | .actionClear _ _ args => argsFit args
  | .meterWrite _ _ args => argsFit args
  | .meterRead _ _ args => argsFit args
  | .binruleWrite _ _ args => argsFit args
  | .binruleRead _ _ args => argsFit args
  | .binsRead _ _ args => argsFit args
  | .binsReadClear _ _ args => argsFit args
  | .binsClear _ _ args => argsFit args
  | .captureFetch _ _ args => argsFit args
  | .captureRelease _ _ args => argsFit args
  | .reportAck _ _ args => argsFit args
  | .statsRead _ _ args => argsFit args
  | .statsClear _ _ args => argsFit args
  | .deviceReset _ _ args => argsFit args
  | .lineTimeTick => true
  | .resetnHeldLow _ => true

end Sys2Proof
end

