-- ==== Sys2Proof/Tests/Slice0.lean ====
section
/-! SUPPORT. Tests: the smoke test of WellFormed, the spec's worked examples, and for every statement with
hypotheses a witness that meets them, clause by clause. -/

namespace Sys2Proof.Tests

open Sys2Proof Sys2Proof.Machine

-- The tests are checked one after another: checked side by side, each of them holds a thread of its own.
set_option Elab.async false

/-! ### States the tests start from -/

/-- A part with address 0x21, right after reset and with no report waiting. -/
def assigned : State := { State.reset with nodeAddress := some 0x21, waiting := [] }

/-- A port that is UP between cells. -/
def upPort : Port := ⟨.up, 8, 0, .between, 0, false, true, true⟩

/-- A port that is UP in a cell with `n` symbols received. -/
def inCellPort (n : Nat) : Port := { upPort with position := .inCell, cellBytes := n }

/-- The assigned part with both ports UP. -/
def linked : State := { assigned with headPort := upPort, tailPort := upPort }

/-- The linked part with its Head transmitter busy, so that no grant falls. -/
def busy : State := { linked with headTx := .sending .detached [] }

/-- Whether a command answers a next state of which `f` holds. -/
def leads (o : Host.Outcome State Fault Refusal) (f : State → Bool) : Bool :=
  match o with
  | .next t => f t
  | .fault _ => false
  | .refused _ => false

/-- The answer of an owning rule: its status and its results. -/
def said (a : Answer) : Status × List Byte := (a.status, a.results)

/-! ### Well-formedness and decoding -/

/-- A request of any kind with 47 argument bytes fits no cell. -/
theorem test_wellFormed_refuses_long_requests :
    allKinds.all (fun k => !(requestOf k .addressed 0 (List.replicate 47 0)).wellFormed) = true := by decide

theorem test_wellFormed_accepts_full_requests :
    allKinds.all (fun k => (requestOf k .broadcast 0 (List.replicate 46 0)).wellFormed) = true := by decide

/-- No row of the opcode table gives bits. -/
theorem test_no_word_spells_a_command : decodeTableWord 16 0x0101 = none := by decide

/-! ### The checks of R214 and the layouts of R213 -/

theorem test_headerCheck_of_digits :
    headerCheck [0x31, 0x32, 0x33, 0x34, 0x35, 0x36, 0x37, 0x38, 0x39] = 0xF4 := by decide +kernel

theorem test_payloadCheck_of_digits :
    payloadCheck [0x31, 0x32, 0x33, 0x34, 0x35, 0x36, 0x37, 0x38, 0x39] = 0x29B1 := by decide +kernel

theorem test_headerCheck_of_zeros : headerCheck [0, 0, 0, 0, 0] = 0x00 := by decide +kernel

/-- R213: kind in bits 7 to 4 of byte 0, the channel across bytes 0 and 1, the length in bits 5 to 0 of byte 1. -/
theorem test_headerOf_fields : headerOf [0x1A, 0x6F, 0x11, 0x22, 0x33, 0x00] =
    ⟨0x1, 0x29, 0x2F, 0x11, 0x22, 0x33⟩ := by decide

/-! ### Worked examples and commands, one step each -/

/-- 04, 4.8: the rule of the temperature histogram. -/
def temperatureRule : BinConfig := ⟨true, 256, 5, .payloadWord, 2, 4, .clamp, .none, 0, 0, .one⟩

/-- A DATA header on channel 5 of this length. -/
def dataHeader (length : Nat) : Header := ⟨1, 5, length, 0, 0x40, 0⟩

/-- 04, 4.8, cell A: reading 336 falls into bin 277. -/
theorem test_histogram_counts_a_reading :
    (countCell 0 temperatureRule (dataHeader 8) (List.replicate 8 0 ++ [0x01, 0x50, 0, 0, 0, 0]) State.reset).bin
      277 = 1 := by decide +kernel

/-- 04, 4.8, cell D: reading 1056 is clamped into bin 287. -/
theorem test_histogram_clamps_a_reading :
    (countCell 0 temperatureRule (dataHeader 8) (List.replicate 8 0 ++ [0x04, 0x20, 0, 0, 0, 0]) State.reset).bin
      287 = 1 := by decide +kernel

/-- 04, 4.8, cell E: a cell of length 3 has no word at offset 2. -/
theorem test_histogram_lacks_a_source :
    (countCell 0 temperatureRule (dataHeader 3) (List.replicate 9 0) State.reset).rules[0].sourceAbsent = 1 := by
  decide +kernel

/-- 04, 4.9: a bin stops at its maximum and raises BIN_SATURATED with its position. -/
theorem test_bin_saturates :
    (let t := addToBin 40 56 (assigned.setBin 40 4294967288)
     t.bin 40 == 4294967295 && t.waiting == [⟨.binSaturated, 40, 1, 0⟩]) = true := by decide +kernel

/-- 03, 3.9, event 2: 56 bytes leave 144 of a credit of 200. -/
theorem test_charge_conforms :
    (chargeMeter 2 56 (assigned.setMeter 2 ⟨100, 200, 200, .demote, false, 0, 0⟩)).1.meters[2] =
      ⟨100, 200, 144, .demote, false, 1, 0⟩ := by decide +kernel

/-- 03, 3.9, event 6: a cell of 56 bytes finds 32 and exceeds. -/
theorem test_charge_exceeds :
    (let c := chargeMeter 2 56 (assigned.setMeter 2 ⟨100, 200, 32, .demote, false, 3, 0⟩)
     c.1.meters[2] == ⟨100, 200, 32, .demote, true, 3, 1⟩ && c.2 == .exceed .demote &&
       c.1.waiting == [⟨.meterExceeded, 2, 1, 0⟩]) = true := by decide +kernel

/-- 03, 3.9, event 10: the refill takes 8 to 108. -/
theorem test_refill :
    leads (exec .refillExpiry
        { assigned.setMeter 2 ⟨100, 200, 8, .demote, false, 5, 2⟩ with refillLeft := 0 })
      (fun t => t.meters[2].credit == 108 && t.refillLeft == 100) = true := by decide +kernel

/-- 03, 3.9, event 1: the reply carries the credit 64 that stood before. -/
theorem test_meterWrite :
    leads (exec (.meterWrite .addressed 7 [2, 0, 100, 0, 200, 1, 1]) assigned)
      (fun t => t.meters[2] == ⟨100, 200, 200, .demote, false, 0, 0⟩ &&
        t.replies == [⟨15, 7, .ok, [0, 64, 0, 0, 0, 0, 0, 0, 0, 0, 0], false, false⟩]) = true := by decide +kernel

/-- The reset meter, read back (R56, R58). -/
theorem test_meterRead :
    said (ownerAnswer .meterRead [15] State.reset) =
      (.ok, [15, 0, 0, 0, 64, 2, 0, 64, 0, 0, 0, 0, 0, 0, 0, 0, 0]) := by decide +kernel

/-- An entry of batch `b` in state `st` that names record `a`. -/
def entryIn (st : EntryState) (b : Fin 8) (a : Fin 32) (hits : Word32) : Entry :=
  { Entry.cleared with state := st, batch := b, action := a, hits := hits, lengthMax := 48 }

/-- A verdict of entry `i` with record `a`, forwarding in the normal class. -/
def verdictOf (i : Option (Fin 64)) (a : Option (Fin 32)) : Verdict :=
  ⟨i, a, ⟨.forward, .normal, none, none, none⟩, none, .absent, .normal⟩

/-- A reception of a cell of length 0 past key-complete with this verdict. -/
def reception (v : Verdict) : Reception := ⟨[0x10, 0, 0, 0, 0, 0x57], some ⟨⟨1, 0, 0, 0, 0, 0⟩, 0, 1, 0, some v⟩⟩

/-- 01, 1.11: batch 2 before its replacement, cell X holding entry 5. -/
def beforeSwitch : State :=
  { ((((assigned.setEntry 4 (entryIn .live 2 3 1208)).setEntry 5 (entryIn .live 2 3 312)).setEntry 6
        (entryIn .live 2 3 40)).setEntry 20 (entryIn .pending 2 7 0)).setEntry 21 (entryIn .pending 2 7 0) with
    actions := (State.reset.actions.set 3 ⟨true, Action.zero, 3⟩).set 7 ⟨true, Action.zero, 2⟩
    freeBuffers := 23
    tailRx := .receiving (reception (verdictOf (some 5) (some 3))) }

/-- 01, 1.11, event 1: 2 entries activated, 3 retired, entry 5 RETIRING while X holds it. -/
theorem test_batchActivate :
    leads (exec (.batchActivate .addressed 1 [2, 2]) beforeSwitch)
      (fun t => t.entries[4] == Entry.cleared && t.entries[5] == entryIn .retiring 2 3 312 &&
        t.entries[6] == Entry.cleared && t.entries[20] == entryIn .live 2 7 0 && t.actions[3].refs == 1 &&
        t.actions[7].refs == 2 && t.replies == [⟨8, 1, .ok, [2, 3], false, false⟩]) = true := by decide +kernel

/-- 01, 1.11, event 4: at the end of X entry 5 becomes EMPTY and drops its reference. -/
theorem test_endOfCell_releases_a_retiring_entry :
    leads (exec .endOfCell { beforeSwitch with
        entries := beforeSwitch.entries.set 5 (entryIn .retiring 2 3 312)
        tailPort := inCellPort 6 })
      (fun t => t.entries[5] == Entry.cleared && t.actions[3].refs == 2 && t.normal.length == 1 &&
        t.tailRx == .idle) = true := by decide +kernel

/-- 01, 1.11, event 2: a LIVE entry refuses a write. -/
theorem test_entryWrite_busy :
    leads (exec (.entryWrite .addressed 1 ([5, 2, 0, 0, 0, 0, 0, 0, 0, 0, 0, 48, 0, 0, 0, 0, 0, 3, 0]))
        beforeSwitch)
      (fun t => t.entries == beforeSwitch.entries && t.replies == [⟨6, 1, .entryBusy, [], false, false⟩]) =
        true := by decide +kernel

/-- R16: a write of an EMPTY entry takes a reference. -/
theorem test_entryWrite_pending :
    leads (exec (.entryWrite .addressed 1 ([9, 2, 1, 15, 5, 63, 0, 0, 0, 0, 4, 48, 0, 0, 0, 0, 2, 7, 1]))
        beforeSwitch)
      (fun t => t.entries[9].state == .pending && t.entries[9].channelCare == 63 && t.entries[9].lengthMin == 4 &&
        t.entries[9].presence == .anyAbsent && t.entries[9].firstHit && t.actions[7].refs == 3) = true := by
  decide +kernel

/-- R17: an entry read back. -/
theorem test_entryRead :
    said (ownerAnswer .entryRead [4] beforeSwitch) =
      (.ok, [4, 2, 2, 0, 0, 0, 0, 0, 0, 0, 0, 0, 48, 0, 0, 0, 0, 0, 3, 0, 0, 0, 0x04, 0xB8]) := by decide +kernel

/-- R18, R19: the held entry becomes RETIRING. -/
theorem test_entryRetire_held :
    leads (exec (.entryRetire .addressed 1 [5]) beforeSwitch)
      (fun t => t.entries[5].state == .retiring && t.replies == [⟨9, 1, .ok, [2, 3], false, false⟩]) = true := by
  decide +kernel

/-- R20: LIVE and PENDING entries are counted apart. -/
theorem test_batchRetire :
    leads (exec (.batchRetire .broadcast 1 [2]) beforeSwitch)
      (fun t => t.entries[20] == Entry.cleared && t.entries[5].state == .retiring && t.actions[7].refs == 0 &&
        t.replies == [] && t.stats.requestsTaken == 1) = true := by decide +kernel

/-- R21: LIVE entries stay. -/
theorem test_batchDiscard :
    leads (exec (.batchDiscard .addressed 1 [2]) beforeSwitch)
      (fun t => t.entries[20] == Entry.cleared && t.entries[4].state == .live &&
        t.replies == [⟨11, 1, .ok, [2], false, false⟩]) = true := by decide +kernel

/-- 01, 1.11, event 3: a named record is not cleared. -/
theorem test_actionClear_in_use :
    leads (exec (.actionClear .addressed 1 [3]) beforeSwitch)
      (fun t => t.actions[3].defined && t.replies == [⟨14, 1, .inUse, [3], false, false⟩]) = true := by
  decide +kernel

/-- R36: the write answers with what stood before; R37 reads the record back. -/
theorem test_actionWrite :
    leads (exec (.actionWrite .addressed 1 [9, 3, 1, 7, 63, 15, 7]) assigned)
      (fun t => t.actions[9] == ⟨true, ⟨.captureDiscard, .normal, some 63, some 15, some 7⟩, 0⟩ &&
        t.replies == [⟨12, 1, .ok, [0, 0], false, false⟩] &&
        said (ownerAnswer .actionRead [9] t) == (.ok, [9, 1, 3, 1, 7, 63, 15, 7, 0])) = true := by decide +kernel

/-- R35: a meter position above 15 is refused before the disposition is looked at. -/
theorem test_actionWrite_order :
    (said (ownerAnswer .actionWrite [9, 9, 1, 2, 0, 16, 0] assigned)).1 = .badIndex := by decide +kernel

/-- 04, 4.8, event 1: the rule is written; R71 reads it back. -/
theorem test_binruleWrite :
    leads (exec (.binruleWrite .addressed 1 [0, 1, 1, 0, 5, 1, 2, 4, 1, 0, 0, 0, 0, 1]) assigned)
      (fun t => t.rules[0] == ⟨temperatureRule, 0, 0, 0⟩ &&
        said (ownerAnswer .binruleRead [0] t) ==
          (.ok, [0, 1, 1, 0, 5, 1, 2, 4, 1, 0, 0, 0, 0, 0, 0, 0, 0, 0, 0, 0, 0, 0, 0, 0, 0])) = true := by
  decide +kernel

/-- 04, 4.8, event 8: bins 277 and 278 as the reply carries them. -/
theorem test_binsReadClear :
    said (ownerAnswer .binsReadClear [0x01, 0x15, 0, 2] (assigned.setBin 277 2)) =
      (.ok, [0x01, 0x15, 0, 2, 0, 0, 0, 2, 0, 0, 0, 0]) := by decide +kernel

/-- R72: the last bin may be read, one past it may not. -/
theorem test_binsRead_end_of_table :
    (said (ownerAnswer .binsRead [0x03, 0xFF, 0, 1] State.reset),
        (said (ownerAnswer .binsRead [0x03, 0xFF, 0, 2] State.reset)).1) =
      ((.ok, [0x03, 0xFF, 0, 1, 0, 0, 0, 0]), .badIndex) := by decide +kernel

/-- R75: one bin above 0, and it is at the maximum. -/
theorem test_binsClear :
    said (ownerAnswer .binsClear [0x03, 0xFE, 0, 2] (assigned.setBin 1023 4294967295)) =
      (.ok, [0x03, 0xFE, 0, 2, 0, 1, 0, 1]) := by decide +kernel

/-- 05, 5.7: a record of a cell of length 40. -/
def record812 : CaptureRecord :=
  ⟨812, 3000417, some 7, some 14, .forwardedNormal, [0x12, 0x68, 1, 2, 3, 0],
    (List.range 40).map byteOf⟩

/-- 05, 5.7: part 1 carries the payload length 40, bytes 24 to 39 and 8 bytes of 0. -/
theorem test_captureFetch_part1 :
    said (ownerAnswer .captureFetch [1] { assigned with captures := [record812, record812, record812] }) =
      (.ok, [3, 44, 3, 40, 24, 25, 26, 27, 28, 29, 30, 31, 32, 33, 34, 35, 36, 37, 38, 39, 0, 0, 0, 0, 0, 0, 0,
        0]) := by decide +kernel

/-- 05, 5.7: the release leaves 2 records. -/
theorem test_captureRelease :
    leads (exec (.captureRelease .addressed 1 [3, 44])
        { assigned with captures := [record812, record812, record812] })
      (fun t => t.captures.length == 2 && t.replies == [⟨23, 1, .ok, [2], false, false⟩]) = true := by
  decide +kernel

/-- A SENT record of sequence `q`. -/
def sentOf (q : Byte) (sends : Nat) (c : SentCondition) : SentReport := ⟨.linkChanged, 1, 1, 0, q, sends, c⟩

/-- R144: the record leaves, whatever its condition. -/
theorem test_reportAck :
    leads (exec (.reportAck .addressed 1 [4]) { assigned with sent := [sentOf 4 2 .due] })
      (fun t => t.sent == [] && t.replies == [⟨24, 1, .ok, [7, 0, 1, 2], false, false⟩]) = true := by decide +kernel

/-- R143: after the fourth send the record is abandoned. -/
theorem test_reportTimerExpiry :
    leads (exec (.reportTimerExpiry 4) { assigned with sent := [sentOf 4 4 (.timing 0)] })
      (fun t => t.sent == [] && t.stats.reportsAbandoned == 1) = true := by decide +kernel

/-- 11, 11.5: the clear carries 6 cells, and its own request is counted after it. -/
theorem test_statsClear :
    leads (exec (.statsClear .addressed 1 []) { beforeSwitch with
        urgent := [[1], [2]], normal := [[3], [4], [5]], freeBuffers := 18
        stats := { Stats.zero with started := 77 } })
      (fun t => t.stats == { Stats.zero with carried := 6, requestsTaken := 1 } &&
        t.replies == [⟨26, 1, .ok, [0, 0, 0, 6], false, false⟩]) = true := by decide +kernel

/-- R216: group 3 right after reset. -/
theorem test_statsRead_snapshot :
    said (ownerAnswer .statsRead [3] State.reset) = (.ok, [3, 24, 0, 0, 1, 0, 0, 0, 0, 0, 0]) := by decide +kernel

/-- R206: probe1_offset is 1 by default, miss_action NONE reads 0x00FF. -/
theorem test_settingRead :
    (said (ownerAnswer .settingRead [2] State.reset), said (ownerAnswer .settingRead [0] State.reset)) =
      ((.ok, [2, 0, 1]), (.ok, [0, 0, 0xFF])) := by decide +kernel

/-- R170: 500 is an interval, 499 is none. -/
theorem test_settingWrite :
    leads (exec (.settingWrite .addressed 1 [4, 0x01, 0xF4]) assigned)
      (fun t => t.settings.refillInterval == 500 && t.refillLeft == 500 &&
        said (ownerAnswer .settingWrite [4, 0x01, 0xF3] t) == (.badValue, [])) = true := by decide +kernel

/-- R165. -/
theorem test_ping :
    leads (exec (.ping .addressed 9 [0xAB]) { assigned with lineTime := 0x01020304 })
      (fun t => t.replies == [⟨1, 9, .ok, [1, 2, 3, 4, 0xAB], false, false⟩]) = true := by decide +kernel

/-- R166, R216: 1,024 bins are carried as 0x0400. -/
theorem test_identRead :
    said (ownerAnswer .identRead [] State.reset) =
      (.ok, [0x02, 0x40, 1, 64, 32, 16, 8, 0x04, 0x00, 8, 24, 16]) := by decide +kernel

/-- R168: the address before is 0x00 for UNASSIGNED. -/
theorem test_addressAssign :
    leads (exec (.addressAssign .addressed 9 [0xEF]) State.reset)
      (fun t => t.nodeAddress == some 0xEF && t.replies == [⟨3, 9, .ok, [0, 0xEF], false, false⟩]) = true := by
  decide +kernel

/-- R173: the device reset waits for its reply. -/
theorem test_deviceReset_waits :
    leads (exec (.deviceReset .addressed 9 []) beforeSwitch)
      (fun t => t.resetPending && t.entries == beforeSwitch.entries &&
        t.replies == [⟨27, 9, .ok, [], true, false⟩]) = true := by decide +kernel

/-- 06, 6.10, R114: a broadcast device reset sends the cell in reception to DISCARDING. -/
theorem test_deviceReset_broadcast :
    leads (exec (.deviceReset .broadcast 9 []) beforeSwitch)
      (fun t => t.tailRx == .discarding && t.freeBuffers == 24 && t.entries[4] == Entry.cleared &&
        t.waiting == [⟨.resetDone, 1, 1, 0⟩] && t.nodeAddress == some 0x21) = true := by decide +kernel

/-- R185: the eighth alignment word takes the port UP. -/
theorem test_alignmentWord :
    leads (exec (.alignmentWord .tail) { assigned with
        tailPort := { Port.resetValue with link := .aligning, run := 7 } })
      (fun t => t.tailPort.link == .up && t.tailPort.upPin && t.waiting == [⟨.linkChanged, 1, 1, 0⟩]) = true := by
  decide +kernel

/-- R184. -/
theorem test_signalDetected :
    leads (exec (.signalDetected .head) State.reset) (fun t => t.headPort.link == .aligning) = true := by
  decide +kernel

/-- 11, 11.5, event 5: Head leaves UP and the urgent head is aborted. -/
theorem test_lossOfSignal :
    leads (exec (.lossOfSignal .head) { linked with
        urgent := [[1]], freeBuffers := 23, headTx := .sending .urgent [1] })
      (fun t => t.headPort.link == .down && t.headTx == .idle && t.urgent == [] && t.freeBuffers == 24 &&
        t.stats.txAborted == 1) = true := by decide +kernel

/-- R183: a cell leaves between its delimiters, and a port without one sends alignment words. -/
theorem test_sends :
    ({ linked with headTx := .sending .urgent [1, 2] } : State).sends .head =
      .cell [.startDelimiter, .data 1, .data 2, .endDelimiter] ∧ linked.sends .tail = .alignmentWords ∧
    State.reset.sends .head = .alignmentWords := by decide +kernel

/-- R188: a data byte between cells is a framing violation. -/
theorem test_dataByte_between :
    leads (exec (.dataByte .head 0x55) linked)
      (fun t => t.headPort.violations == 1 && t.headPort.position == .hunting) = true := by decide +kernel

/-- R190: a code violation in a cell stands as 0x00 and marks the cell. -/
theorem test_codeViolation :
    leads (exec (.codeViolation .tail) { linked with
        tailPort := inCellPort 1, freeBuffers := 23, tailRx := .receiving ⟨[0x10], none⟩ })
      (fun t => t.tailRx == .receiving ⟨[0x10, 0], none⟩ && t.tailPort.cellBad && t.tailPort.cellBytes == 2) =
        true := by decide +kernel

/-- R190: a code violation as the sixth symbol fails the header check. -/
theorem test_codeViolation_sixth :
    leads (exec (.codeViolation .head) { linked with
        headPort := inCellPort 5, headRx := .receiving [0, 0, 0, 0, 0] })
      (fun t => t.headRx == .discarding && t.stats.badDown == 1) = true := by decide +kernel

/-- 06, 6.9, event 9: with no free buffer the cell passes in DISCARDING. -/
theorem test_startOfCell_without_a_buffer :
    leads (exec .startOfCell { linked with freeBuffers := 0 })
      (fun t => t.tailRx == .discarding && t.stats.started == 1 && t.stats.poolDropped == 1 &&
        t.sent.map SentReport.kind == [.poolExhausted]) = true := by decide +kernel

/-- The first five bytes of a DATA header on channel 5 of length 8, and its check. -/
def five : List Byte := [0x11, 0x48, 0x00, 0x40, 0x00]

/-- R99, R5: the key of length 8 and offsets 0 and 1 is whole at the second payload byte. -/
theorem test_headerComplete :
    leads (exec (.headerComplete (headerCheck five)) { linked with
        tailPort := inCellPort 5, freeBuffers := 23, tailRx := .receiving ⟨five, none⟩ })
      (fun t => t.tailRx == .receiving ⟨five ++ [headerCheck five],
        some ⟨dataHeader 8, 0, 1, 2, none⟩⟩) = true := by decide +kernel

/-- R99: a bad header frees the buffer. -/
theorem test_headerComplete_bad :
    leads (exec (.headerComplete (headerCheck five + 1)) { linked with
        tailPort := inCellPort 5, freeBuffers := 23, tailRx := .receiving ⟨five, none⟩ })
      (fun t => t.tailRx == .discarding && t.freeBuffers == 24 && t.stats.headerBad == 1) = true := by
  decide +kernel

/-- 01, 1.12, order A: the hit count goes from 57 to 58. -/
theorem test_keyComplete :
    leads (exec (.keyComplete 0xAA) { beforeSwitch with
        entries := State.reset.entries.set 10 { entryIn .live 1 3 57 with channelValue := 5, channelCare := 63 }
        tailPort := { inCellPort 7 with cellBytes := 7 }
        tailRx := .receiving ⟨five ++ [headerCheck five, 0x01], some ⟨dataHeader 8, 0, 1, 2, none⟩⟩ })
      (fun t => t.entries[10].hits == 58 && t.held == some 10) = true := by decide +kernel

/-- 06, 6.9, event 3: a NORMAL cell at the limit is dropped. -/
theorem test_endOfCell_queue_dropped :
    leads (exec .endOfCell { busy with
        tailPort := inCellPort 6, freeBuffers := 0, normal := List.replicate 20 [1], urgent := List.replicate 3 [1]
        tailRx := .receiving (reception (verdictOf none none)) })
      (fun t => t.normal.length == 20 && t.freeBuffers == 1 && t.stats.queueDropped == 1 &&
        t.waiting == [⟨.poolExhausted, 1, 1, 0⟩]) = true := by decide +kernel

/-- R193. -/
theorem test_headStartOfCell :
    leads (exec .headStartOfCell linked)
      (fun t => t.headRx == .receiving [] && t.headPort.position == .inCell) = true := by decide +kernel

/-- R193: a bad header on Head. -/
theorem test_headHeaderComplete :
    leads (exec (.headHeaderComplete (headerCheck five + 1)) { linked with
        headPort := inCellPort 5, headRx := .receiving five })
      (fun t => t.headRx == .discarding && t.stats.badDown == 1) = true := by decide +kernel

/-- R194: a DATA cell goes on downstream, and the Tail transmitter starts with it. -/
theorem test_headEndOfCell :
    leads (exec .headEndOfCell { linked with
        headPort := inCellPort 6, headRx := .receiving (buildCell (dataHeader 0) []) })
      (fun t => t.downQueue == [buildCell (dataHeader 0) []] && t.tailTx == .sending && t.stats.received == 1) =
        true := by decide +kernel

/-- 07, 7.9: at the starvation limit the normal source is granted first. -/
theorem test_transmitStart_guard :
    leads (exec .transmitStart { linked with urgent := [[1]], normal := [[2]], starvation := 16 })
      (fun t => t.headTx == .sending .normal [2] && t.starvation == 0) = true := by decide +kernel

/-- R110: the urgent head leaves its queue and its buffer. -/
theorem test_transmitComplete :
    leads (exec .transmitComplete { linked with
        urgent := [[1]], freeBuffers := 23, headTx := .sending .urgent [1] })
      (fun t => t.urgent == [] && t.freeBuffers == 24 && t.stats.forwarded == 1) = true := by decide +kernel

/-- R196. -/
theorem test_tailTransmitStart :
    leads (exec .tailTransmitStart { linked with downQueue := [[1]] }) (fun t => t.tailTx == .sending) = true := by
  decide +kernel

/-- R196. -/
theorem test_tailTransmitComplete :
    leads (exec .tailTransmitComplete { linked with downQueue := [[1], [2]], tailTx := .sending })
      (fun t => t.downQueue == [[2]] && t.tailTx == .sending && t.stats.forwardedDown == 1) = true := by
  decide +kernel

/-- R208: the line time wraps. -/
theorem test_lineTimeTick :
    leads (exec .lineTimeTick { assigned with lineTime := 0xFFFFFFFF })
      (fun t => t.lineTime == 0 && t.refillLeft == 99) = true := by decide +kernel

/-- R149: the first report of a part out of reset. -/
theorem test_powerOnReset :
    leads (exec .powerOnReset linked)
      (fun t => t.waiting == [⟨.resetDone, 0, 1, 0⟩] && t.headPort == Port.resetValue && t.nodeAddress == none &&
        t.lineTime == 0) = true := by decide +kernel

/-- R210. -/
theorem test_resetnHeldLow :
    leads (exec (.resetnHeldLow 1000) { linked with lineTime := 5 })
      (fun t => t.resetHeld && !t.headPort.upPin && !t.tailPort.txDriven && t.lineTime == 0) = true := by
  decide +kernel

/-! ### Witnesses

For each statement with hypotheses, states and operands that meet them, clause by clause and at the boundary values of
each clause. A hypothesis that only names a state or a value by an equation is met by that state or value. -/

theorem accepts_assigned (code tag : Byte) : Accepts code tag assigned :=
  ⟨rfl, rfl, by decide, fun _ h => absurd h List.not_mem_nil⟩

theorem accepts_reset (code tag : Byte) : Accepts code tag State.reset :=
  ⟨rfl, rfl, by decide, fun _ h => absurd h List.not_mem_nil⟩

theorem accepts_beforeSwitch (code tag : Byte) : Accepts code tag beforeSwitch :=
  ⟨rfl, rfl, by decide, fun _ h => absurd h List.not_mem_nil⟩

theorem hears_beforeSwitch : Hears beforeSwitch := ⟨rfl, rfl⟩

theorem hears_assigned : Hears assigned := ⟨rfl, rfl⟩

/-- A part held in reset. -/
def heldPart : State := { State.reset with resetHeld := true }

/-- A stored reply. -/
def storedReply (tag : Byte) : MemoryRecord := ⟨tag, 1, .ok, [0, 0, 0, 0]⟩

/-- A waiting reply. -/
def waitingReply : Reply := ⟨1, 5, .ok, [0, 0, 0, 0], false, false⟩

/-- A part that a device reset waits in. -/
def waitingReset : State := { assigned with resetPending := true, replies := [⟨27, 5, .ok, [], true, false⟩] }

theorem witness_StepRunsTheFrontCommand : State.reset.pending = [] := rfl

theorem witness_NothingActsWhileResetIsHeld : heldPart.resetHeld = true ∧ Instr.startOfCell ≠ .powerOnReset ∧
    ∀ ns, Instr.startOfCell ≠ .resetnHeldLow ns := ⟨rfl, by decide, fun _ h => by cases h⟩

theorem witness_CloseOfAnEventIsTheTwoStarts : linked.resetHeld = false := rfl

theorem witness_ResetnLowHoldsThePartInReset :
    99 < 100 ∧ 1000 ≤ 1000 ∧ (100 ≤ 100 ∧ 100 < 1000) ∧ 100 ≤ 999 ∧ 999 < 1000 := by decide

theorem witness_DeviceResetWaitsOrTakesEffect :
    (Accepts 27 9 assigned ∧ assigned.nodeAddress ≠ none) ∧ (Accepts 27 9 State.reset ∧
      State.reset.nodeAddress = none) ∧ Hears assigned :=
  ⟨⟨accepts_assigned _ _, by decide⟩, ⟨accepts_reset _ _, rfl⟩, hears_assigned⟩

theorem witness_RequestsAreDroppedReplayedOrRefused :
    (waitingReset.resetHeld = false ∧ waitingReset.resetPending = true) ∧
      4 ≤ ({ assigned with replies := List.replicate 4 waitingReply } : State).replies.length ∧
      (({ assigned with replies := List.replicate 3 waitingReply } : State).replies.length < 4 ∧
        ({ assigned with memory := [storedReply 4, storedReply 5] } : State).memory =
          [storedReply 4] ++ storedReply 5 :: [] ∧
        (∀ x ∈ [storedReply 4], ¬(x.tag = 5 ∧ x.kind = Kind.ping.code)) ∧ (storedReply 5).tag = 5 ∧
        (storedReply 5).kind = Kind.ping.code) ∧
      Kind.identRead ∉ [Kind.batchActivate, .batchRetire, .batchDiscard, .statsClear, .deviceReset, .ping] := by
  decide

theorem witness_BadRequestsReachNoBlock :
    ((List.replicate 18 (0 : Byte)).length + 2 < Kind.entryWrite.least ∧ Accepts Kind.entryWrite.code 1 assigned) ∧
      ([0] : List Byte).length + 2 < Kind.batchActivate.least ∧ Kind.batchActivate.broadcast = true ∧
      Hears assigned ∧ kindOf 28 = none ∧ Accepts 28 1 assigned :=
  ⟨⟨by decide, accepts_assigned _ _⟩, by decide, rfl, hears_assigned, by decide, accepts_assigned _ _⟩

theorem witness_ReplyMemoryKeepsTheLastFourTags :
    (∃ x ∈ [storedReply 1, storedReply 2], x.tag = (storedReply 1).tag) ∧
      ((∀ x ∈ [storedReply 1, storedReply 2, storedReply 3], x.tag ≠ (storedReply 4).tag) ∧
        [storedReply 1, storedReply 2, storedReply 3].length < 4) ∧
      (∀ x ∈ [storedReply 1, storedReply 2, storedReply 3, storedReply 4], x.tag ≠ (storedReply 5).tag) ∧
      [storedReply 1, storedReply 2, storedReply 3, storedReply 4].length = 4 ∧
      ([storedReply 1, storedReply 2, storedReply 3, storedReply 4].map MemoryRecord.tag).Nodup := by decide

theorem witness_PingIdentReadAndAddressAssign :
    Accepts 1 9 assigned ∧ Hears assigned ∧ Accepts 2 9 assigned ∧ Accepts 3 9 assigned ∧
      (1 ≤ (0x01 : Byte).toNat ∧ (0x01 : Byte).toNat ≤ 0xEF) ∧ (0xEF : Byte).toNat ≤ 0xEF ∧
      (0x00 : Byte).toNat < 1 ∧ 0xEF < (0xF0 : Byte).toNat :=
  ⟨accepts_assigned _ _, hears_assigned, accepts_assigned _ _, accepts_assigned _ _, by decide⟩

/-- The value two bytes carry. -/
def value (hi lo : Byte) : Nat := hi.toNat * 256 + lo.toNat

theorem witness_SettingWriteSetsOneSetting : Accepts 4 9 assigned ∧
    value 0 47 ≤ 47 ∧ (1 ≤ value 0 1 ∧ value 0 1 ≤ 23) ∧ value 0 23 ≤ 23 ∧
    (value 0 50 ∈ [50, 100, 200, 500] ∧ value 0x01 0xF4 ∈ [50, 100, 200, 500]) ∧
    (1 ≤ value 0 1 ∧ value 0 255 ≤ 255) ∧ 8 ≤ (8 : Byte).toNat ∧
    (31 < value 0 32 ∧ value 0 32 ≠ 0x00FF) ∧ 47 < value 0 48 ∧ (value 0 0 < 1 ∧ 23 < value 0 24) ∧
    value 0 51 ∉ [50, 100, 200, 500] ∧ 255 < value 1 0 ∧ (1 : Byte) ≠ 0 :=
  ⟨accepts_assigned _ _, by decide⟩

theorem witness_MissActionWriteMovesTheReference : Accepts 4 9 beforeSwitch ∧
    value 0 7 = (7 : Fin 32).val ∧ beforeSwitch.actions[(7 : Fin 32)].defined = true ∧
    value 0 0xFF = 0x00FF ∧ value 0 31 = (31 : Fin 32).val ∧
    beforeSwitch.actions[(31 : Fin 32)].defined = false :=
  ⟨accepts_beforeSwitch _ _, by decide +kernel⟩

theorem witness_ReadRequestsAnswerWhatStands :
    (Accepts 5 9 assigned ∧ Accepts 7 9 assigned ∧ Accepts 16 9 assigned ∧ Accepts 18 9 assigned) ∧
    ((7 : Fin 256).val < 8 ∧ 8 ≤ (8 : Fin 256).val) ∧
    ((63 : Byte).toNat = (63 : Fin 64).val ∧ 63 < (64 : Byte).toNat) ∧
    ((15 : Byte).toNat = (15 : Fin 16).val ∧ 15 < (16 : Byte).toNat) ∧
    (7 : Byte).toNat = (7 : Fin 8).val ∧ 7 < (8 : Byte).toNat :=
  ⟨⟨accepts_assigned _ _, accepts_assigned _ _, accepts_assigned _ _, accepts_assigned _ _⟩, by decide⟩

/-- The arguments of an ENTRY_WRITE with every field at the end of its range. -/
def entryArgs (i a : Byte) : List Byte :=
  [i, 7, 15, 15, 63, 63, 0xFF, 0xFF, 0xFF, 0xFF, 0, 48, 1, 2, 3, 4, 2, a, 1]

/-- The entry those arguments carry. -/
def entryOf (a : Fin 32) : Entry :=
  ⟨.pending, 7, 15, 15, 63, 63, 0xFF, 0xFF, 0xFF, 0xFF, 0, 48, 1, 2, 3, 4, .anyAbsent, a, true, 0⟩

theorem witness_EntryWriteRefused : Accepts 6 9 beforeSwitch ∧
    19 ≤ (entryArgs 64 3).length ∧ 63 < argNat (entryArgs 64 3) 0 ∧ 31 < argNat (entryArgs 63 32) 17 ∧
    (argNat (entryArgs 4 3) 0 = (4 : Fin 64).val ∧ argNat (entryArgs 4 3) 17 = (3 : Fin 32).val) ∧
    7 < argNat ((entryArgs 4 3).set 1 8) 1 ∧ 48 < argNat ((entryArgs 4 3).set 11 49) 11 ∧
    argNat ((entryArgs 4 3).set 10 49) 11 < argNat ((entryArgs 4 3).set 10 49) 10 ∧
    (argNat (entryArgs 4 3) 1 ≤ 7 ∧ argNat (entryArgs 4 3) 2 ≤ 15 ∧ argNat (entryArgs 4 3) 3 ≤ 15 ∧
      argNat (entryArgs 4 3) 4 ≤ 63 ∧ argNat (entryArgs 4 3) 5 ≤ 63 ∧ argNat (entryArgs 4 3) 16 ≤ 2 ∧
      argNat (entryArgs 4 3) 10 ≤ argNat (entryArgs 4 3) 11 ∧ argNat (entryArgs 4 3) 11 ≤ 48) ∧
    beforeSwitch.entries[(4 : Fin 64)].state = .live ∧ beforeSwitch.entries[(20 : Fin 64)].state = .pending ∧
    beforeSwitch.actions[(31 : Fin 32)].defined = false :=
  ⟨accepts_beforeSwitch _ _, by decide +kernel⟩

theorem witness_EntryWriteMakesAPendingEntry : Accepts 6 9 beforeSwitch ∧
    19 ≤ (entryArgs 63 3).length ∧ argNat (entryArgs 63 3) 0 = (63 : Fin 64).val ∧
    ((entryOf 3).batch.val = argNat (entryArgs 63 3) 1 ∧ (entryOf 3).kindValue.toNat = argNat (entryArgs 63 3) 2 ∧
      (entryOf 3).kindCare.toNat = argNat (entryArgs 63 3) 3 ∧
      (entryOf 3).channelValue.toNat = argNat (entryArgs 63 3) 4 ∧
      (entryOf 3).channelCare.toNat = argNat (entryArgs 63 3) 5 ∧
      (entryOf 3).destValue = argByte (entryArgs 63 3) 6 ∧ (entryOf 3).destCare = argByte (entryArgs 63 3) 7 ∧
      (entryOf 3).srcValue = argByte (entryArgs 63 3) 8 ∧ (entryOf 3).srcCare = argByte (entryArgs 63 3) 9 ∧
      (entryOf 3).lengthMin = argNat (entryArgs 63 3) 10 ∧ (entryOf 3).lengthMax = argNat (entryArgs 63 3) 11 ∧
      (entryOf 3).lengthMin ≤ (entryOf 3).lengthMax ∧ (entryOf 3).lengthMax ≤ 48 ∧
      (entryOf 3).probe0Value = argByte (entryArgs 63 3) 12 ∧ (entryOf 3).probe0Care = argByte (entryArgs 63 3) 13 ∧
      (entryOf 3).probe1Value = argByte (entryArgs 63 3) 14 ∧ (entryOf 3).probe1Care = argByte (entryArgs 63 3) 15 ∧
      (entryOf 3).presence.code = argByte (entryArgs 63 3) 16 ∧ (entryOf 3).action.val = argNat (entryArgs 63 3) 17 ∧
      ((entryOf 3).firstHit = true ↔ argByte (entryArgs 63 3) 18 ≠ 0)) ∧
    beforeSwitch.actions[(entryOf 3).action].defined = true ∧
    beforeSwitch.entries[(63 : Fin 64)].state = .empty ∧ beforeSwitch.entries[(20 : Fin 64)].state = .pending :=
  ⟨accepts_beforeSwitch _ _, by decide +kernel⟩

theorem witness_BatchActivateSwitchesTheTable : Accepts 8 9 beforeSwitch ∧ Hears beforeSwitch ∧
    ((7 : Byte).toNat < 8 ∧ (0xFF : Byte) = 0xFF) ∧ (8 ≤ (8 : Byte).toNat ∧ (0xFE : Byte) ≠ 0xFF) ∧
    beforeSwitch.entries[(20 : Fin 64)].state = .pending ∧ beforeSwitch.entries[(20 : Fin 64)].batch.val = 2 ∧
    beforeSwitch.entries[(5 : Fin 64)].state = .live ∧ beforeSwitch.held = some 5 :=
  ⟨accepts_beforeSwitch _ _, hears_beforeSwitch, by decide +kernel⟩

theorem witness_EntryRetireRetiresOneEntry : Accepts 9 9 beforeSwitch ∧
    (63 : Byte).toNat = (63 : Fin 64).val ∧ 63 < (64 : Byte).toNat := ⟨accepts_beforeSwitch _ _, by decide⟩

theorem witness_BatchRetireAndDiscardEmptyABatch :
    Accepts 10 9 beforeSwitch ∧ Accepts 11 9 beforeSwitch ∧ Hears beforeSwitch ∧ (7 : Byte).toNat < 8 ∧
    8 ≤ (8 : Byte).toNat :=
  ⟨accepts_beforeSwitch _ _, accepts_beforeSwitch _ _, hears_beforeSwitch, by decide⟩

/-- The arguments of an ACTION_WRITE with every field at the end of its range. -/
def actionArgs : List Byte := [31, 3, 1, 7, 63, 15, 7]

theorem witness_ActionWriteDefinesTheRecord : Accepts 12 9 assigned ∧ 7 ≤ actionArgs.length ∧
    (argNat actionArgs 0 = (31 : Fin 32).val ∧ Disposition.captureDiscard.code = argByte actionArgs 1 ∧
      CellClass.normal.code = argByte actionArgs 2 ∧
      (some (63 : BitVec 6)).map BitVec.toNat =
        (if (argByte actionArgs 3).getLsbD 0 then some (argNat actionArgs 4) else none) ∧
      (some (15 : Fin 16)).map Fin.val =
        (if (argByte actionArgs 3).getLsbD 1 then some (argNat actionArgs 5) else none) ∧
      (some (7 : Fin 8)).map Fin.val =
        (if (argByte actionArgs 3).getLsbD 2 then some (argNat actionArgs 6) else none)) ∧
    31 < argNat (actionArgs.set 0 32) 0 ∧
    ((argByte actionArgs 3).getLsbD 1 = true ∧ 15 < argNat (actionArgs.set 5 16) 5) ∧
    ((argByte actionArgs 3).getLsbD 2 = true ∧ 7 < argNat (actionArgs.set 6 8) 6) ∧
    3 < argNat (actionArgs.set 1 4) 1 ∧ 1 < argNat (actionArgs.set 2 2) 2 ∧
    (argByte actionArgs 3).getLsbD 0 = true ∧ 63 < argNat (actionArgs.set 4 64) 4 :=
  ⟨accepts_assigned _ _, by decide⟩

theorem witness_ActionReadAndClear : Accepts 13 9 beforeSwitch ∧ Accepts 14 9 beforeSwitch ∧
    (3 : Byte).toNat = (3 : Fin 32).val ∧ 0 < beforeSwitch.actions[(3 : Fin 32)].refs ∧
    (31 : Byte).toNat = (31 : Fin 32).val ∧ beforeSwitch.actions[(31 : Fin 32)].refs = 0 ∧ 31 < (32 : Byte).toNat :=
  ⟨accepts_beforeSwitch _ _, accepts_beforeSwitch _ _, by decide +kernel⟩

theorem witness_MeterWriteSetsTheMeter : Accepts 15 9 assigned ∧
    (15 : Byte).toNat = (15 : Fin 16).val ∧ Policy.pass.code = 2 ∧ value 0x0F 0xFF ≤ 4095 ∧ 64 ≤ value 0 64 ∧
    value 0x3F 0xFF ≤ 16383 ∧ 15 < (16 : Byte).toNat ∧ 4095 < value 0x10 0 ∧ value 0 63 < 64 ∧
    16383 < value 0x40 0 ∧ 2 < (3 : Byte).toNat ∧ 1 < (2 : Byte).toNat := ⟨accepts_assigned _ _, by decide⟩

/-- The arguments of a BINRULE_WRITE with every field at the end of its range. -/
def ruleArgs : List Byte := [7, 1, 0x03, 0xFF, 8, 4, 47, 15, 1, 2, 47, 7, 1, 1]

/-- The configuration they carry. -/
def ruleOf : BinConfig := ⟨true, 1023, 8, .length, 47, 15, .clamp, .bitClear, 47, 7, .cellSize⟩

theorem witness_BinruleWriteSetsTheRule : Accepts 17 9 assigned ∧ 14 ≤ ruleArgs.length ∧
    (argNat ruleArgs 0 = (7 : Fin 8).val ∧ argByte ruleArgs 1 = (if ruleOf.enabled then 1 else 0) ∧
      ruleOf.base = argNat ruleArgs 2 * 256 + argNat ruleArgs 3 ∧ ruleOf.base ≤ 1023 ∧
      ruleOf.width = argNat ruleArgs 4 ∧ ruleOf.width ≤ 8 ∧ ruleOf.source.code = argByte ruleArgs 5 ∧
      ruleOf.sourceOffset = argNat ruleArgs 6 ∧ ruleOf.sourceOffset ≤ 47 ∧ ruleOf.shift = argNat ruleArgs 7 ∧
      ruleOf.shift ≤ 15 ∧ ruleOf.mode.code = argByte ruleArgs 8 ∧ ruleOf.gate.code = argByte ruleArgs 9 ∧
      ruleOf.gateOffset = argNat ruleArgs 10 ∧ ruleOf.gateOffset ≤ 47 ∧ ruleOf.gateBit = argNat ruleArgs 11 ∧
      ruleOf.gateBit ≤ 7 ∧ ruleOf.increment.code = argByte ruleArgs 12 ∧ argByte ruleArgs 13 = 1) ∧
    7 < argNat (ruleArgs.set 0 8) 0 ∧ 1023 < argNat (ruleArgs.set 2 4) 2 * 256 + argNat ruleArgs 3 ∧
    8 < argNat (ruleArgs.set 4 9) 4 ∧ 47 < argNat (ruleArgs.set 6 48) 6 ∧ 15 < argNat (ruleArgs.set 7 16) 7 ∧
    7 < argNat (ruleArgs.set 11 8) 11 ∧ 4 < argNat (ruleArgs.set 5 5) 5 ∧ 1 < argNat (ruleArgs.set 13 2) 13 :=
  ⟨accepts_assigned _ _, by decide⟩

theorem witness_BinsAreReadAndCleared :
    (Accepts 19 9 assigned ∧ Accepts 20 9 assigned ∧ Accepts 21 9 assigned) ∧
    (0 < value 0 10 ∧ value 0x03 0xF6 + value 0 10 ≤ 1024 ∧ value 0 10 ≤ 10) ∧
    (value 0 0 = 0 ∧ 10 < value 0 11) ∧ 1024 < value 0x04 0x01 ∧
    0 < value 0 1 ∧ value 0 1 ≤ 1024 ∧ 1024 < value 0x04 0 + value 0 1 :=
  ⟨⟨accepts_assigned _ _, accepts_assigned _ _, accepts_assigned _ _⟩, by decide⟩

theorem witness_BinsClearedExist : ∀ b : Fin 1024,
    (Vector.replicate 1024 (0 : Word32))[b] =
      if 0 ≤ b.val ∧ b.val < 0 + 1024 then 0 else assigned.bins[b] := by
  intro b
  have := b.isLt
  simp [show b.val < 1024 by omega]

/-- A part with captures in its ring. -/
def capturing : State := { assigned with captures := [record812, record812] }

theorem witness_CaptureFetchAndRelease :
    Accepts 22 9 capturing ∧ Accepts 23 9 capturing ∧ Accepts 22 9 assigned ∧ Accepts 23 9 assigned ∧
    capturing.captures = record812 :: [record812] ∧ assigned.captures = [] ∧ ((2 : Byte) ≠ 0 ∧ (2 : Byte) ≠ 1) ∧
    record812.number.toNat = (3 : Byte).toNat * 256 + (44 : Byte).toNat ∧
    record812.number.toNat ≠ (3 : Byte).toNat * 256 + (45 : Byte).toNat :=
  ⟨⟨rfl, rfl, by decide, fun _ h => absurd h List.not_mem_nil⟩,
    ⟨rfl, rfl, by decide, fun _ h => absurd h List.not_mem_nil⟩, accepts_assigned _ _, accepts_assigned _ _, rfl, rfl,
    by decide⟩

/-- A part with two SENT records. -/
def reporting : State := { assigned with sent := [sentOf 4 2 (.timing 0), sentOf 5 1 .due] }

theorem witness_ReportAckRemovesTheSentRecord :
    Accepts 24 9 reporting ∧ reporting.sent = [sentOf 4 2 (.timing 0)] ++ sentOf 5 1 .due :: [] ∧
    (sentOf 5 1 .due).seq = 5 ∧ (∀ x ∈ [sentOf 4 2 (.timing 0)] ++ [], x.seq ≠ 5) ∧ ∀ x ∈ reporting.sent, x.seq ≠ 6 :=
  ⟨⟨rfl, rfl, by decide, fun _ h => absurd h List.not_mem_nil⟩, rfl, rfl, by decide⟩

theorem witness_StatsReadAndClear : Accepts 25 9 assigned ∧ Accepts 26 9 assigned ∧ Hears assigned ∧
    3 < (4 : Byte).toNat := ⟨accepts_assigned _ _, accepts_assigned _ _, hears_assigned, by decide⟩

theorem witness_ClassificationFindsTheFirstLiveMatch :
    findHit ⟨1, 5, 0, 0, 8, 0, 0, true, true⟩ beforeSwitch = some 4 ∧
    findHit ⟨1, 5, 0, 0, 8, 0, 0, true, true⟩ State.reset = none := by decide +kernel

theorem witness_StartOfCellTakesABuffer : linked.resetHeld = false ∧ linked.tailPort.link = .up ∧
    linked.tailPort.position = .between ∧ linked.tailRx = .idle ∧ 0 < ({ linked with freeBuffers := 1 } : State).freeBuffers ∧
    ({ linked with freeBuffers := 0 } : State).freeBuffers = 0 := by decide

/-- A reception one byte before its sixth. -/
def beforeHeader (bytes : List Byte) : State :=
  { linked with tailPort := inCellPort 5, freeBuffers := 23, tailRx := .receiving ⟨bytes, none⟩ }

/-- Five header bytes of length 0, of length 48 and of length 49. -/
def fiveOf (length : Byte) : List Byte := [0x11, 0x40 + length, 0, 0x40, 0]

theorem witness_HeaderCompleteLatchesOrDiscards :
    ((beforeHeader five).resetHeld = false ∧ (beforeHeader five).tailPort.link = .up ∧
      (beforeHeader five).tailPort.position = .inCell ∧ (beforeHeader five).tailPort.cellBytes < 56 ∧
      (beforeHeader five).tailRx = .receiving ⟨five, none⟩ ∧ five.length = 5 ∧
      (beforeHeader five).tailPort.cellBad = false) ∧
    (headerCheck five + 1 ≠ headerCheck five ∧ 48 < (headerOf (fiveOf 49 ++ [headerCheck (fiveOf 49)])).length) ∧
    (0 < (headerOf (fiveOf 48 ++ [headerCheck (fiveOf 48)])).length ∧
      (headerOf (fiveOf 48 ++ [headerCheck (fiveOf 48)])).length ≤ 48) ∧
    (headerOf (fiveOf 0 ++ [headerCheck (fiveOf 0)])).length = 0 := by decide +kernel

/-- A reception one byte before its key-complete point. -/
def beforeKey : State :=
  { linked with
    tailPort := inCellPort 7
    freeBuffers := 23
    tailRx := .receiving ⟨five ++ [headerCheck five, 1], some ⟨dataHeader 8, 0, 1, 2, none⟩⟩ }

theorem witness_KeyCompleteFormsTheVerdict : beforeKey.resetHeld = false ∧ beforeKey.tailPort.link = .up ∧
    beforeKey.tailPort.position = .inCell ∧ beforeKey.tailPort.cellBytes < 56 ∧
    beforeKey.tailRx = .receiving ⟨five ++ [headerCheck five, 1], some ⟨dataHeader 8, 0, 1, 2, none⟩⟩ ∧
    (five ++ [headerCheck five, 1]).length + 1 = 6 + 2 ∧ (five ++ [headerCheck five, 1]).length < 56 := by
  decide +kernel

/-- A rule that counts the byte at the last offset, where bit 7 of the first byte is 1. -/
def gatedRule : BinConfig := ⟨true, 1023, 8, .payloadByte, 47, 0, .wrap, .bitSet, 0, 7, .cellSize⟩

/-- The bytes of a cell of length 48 whose first and last payload bytes are 0x80 and 0xFF. -/
def gatedCell : List Byte := List.replicate 6 0 ++ [0x80] ++ List.replicate 46 0 ++ [0xFF]

theorem witness_BinCountingFollowsTheRuleCopy :
    BinConfig.resetValue.enabled = false ∧
    (gatedRule.enabled = true ∧ gateStops gatedRule (dataHeader 48) (List.replicate 54 0)) ∧
    gateStops gatedRule (dataHeader 0) [] ∧
    (¬gateStops gatedRule (dataHeader 47) gatedCell ∧ ∀ v, ¬sourceGives gatedRule (dataHeader 47) gatedCell v) ∧
    ¬gateStops gatedRule (dataHeader 48) gatedCell ∧ sourceGives gatedRule (dataHeader 48) gatedCell 255 ∧
    gatedRule.base ≤ 1023 ∧ gatedRule.width ≤ 8 := by
  refine ⟨rfl, ⟨rfl, Or.inr (by decide)⟩, Or.inl (by decide), ⟨?_, fun v h => absurd h.1 (by decide)⟩, ?_,
    ⟨by decide, by decide⟩, by decide, by decide⟩
  · exact fun h => h.elim (by decide) (by decide)
  · exact fun h => h.elim (by decide) (by decide)

/-- A good cell of length 2 and its reception with verdict `v`. -/
def goodCell : Cell := buildCell (dataHeader 2) [0xAA, 0x55]

/-- The reception of `cell` at its end, with `n` symbols received and what header-complete has latched. -/
def atEnd (n : Nat) (cell : Cell) (l : Option Latched) : State :=
  { linked with tailPort := inCellPort n, freeBuffers := 23, tailRx := .receiving ⟨cell, l⟩ }

/-- What header-complete latched of the good cell, with a verdict. -/
def goodLatch (v : Option Verdict) : Latched := ⟨dataHeader 2, 0, 1, 2, v⟩

theorem goodCell_passes : PayloadGood 10 false 2 goodCell := ⟨rfl, by decide, fun _ => by decide +kernel⟩

theorem goodCell_fails : ¬PayloadGood 9 false 2 goodCell := fun h => absurd h.bytes (by decide)

theorem witness_EndOfCellDisposesOfAGoodCell (v : Verdict) :
    (atEnd 10 goodCell (some (goodLatch (some v)))).resetHeld = false ∧
    (atEnd 10 goodCell (some (goodLatch (some v)))).tailPort.link = .up ∧
    (atEnd 10 goodCell (some (goodLatch (some v)))).tailPort.position = .inCell ∧
    (atEnd 10 goodCell (some (goodLatch (some v)))).tailRx = .receiving ⟨goodCell, some (goodLatch (some v))⟩ ∧
    (goodLatch (some v)).verdict = some v ∧
    PayloadGood (atEnd 10 goodCell (some (goodLatch (some v)))).tailPort.cellBytes
      (atEnd 10 goodCell (some (goodLatch (some v)))).tailPort.cellBad (goodLatch (some v)).header.length goodCell :=
  ⟨rfl, rfl, rfl, rfl, rfl, goodCell_passes⟩

theorem witness_EndOfCellFreesAFailedCell (v : Verdict) :
    ((atEnd 3 [1, 2, 3] none).resetHeld = false ∧ (atEnd 3 [1, 2, 3] none).tailPort.link = .up ∧
      (atEnd 3 [1, 2, 3] none).tailPort.position = .inCell ∧
      (atEnd 3 [1, 2, 3] none).tailRx = .receiving ⟨[1, 2, 3], none⟩) ∧
    ({ atEnd 9 [] none with tailRx := .discarding } : State).tailRx = .discarding ∧
    ((goodLatch (some v)).verdict = some v ∧ (goodLatch none).verdict = none ∧
      ¬PayloadGood (atEnd 9 goodCell none).tailPort.cellBytes (atEnd 9 goodCell none).tailPort.cellBad 2 goodCell) :=
  ⟨⟨rfl, rfl, rfl, rfl⟩, rfl, rfl, rfl, goodCell_fails⟩

/-- A WAITING record of this subject. -/
def waitingOf (n : Nat) : WaitingReport := ⟨.meterExceeded, n, 1, 0⟩

theorem witness_OccurrenceIsMergedQueuedOrLost :
    ({ assigned with settings := { Settings.defaults with reportEnable := 0xFE } } : State).settings.reportEnable.getLsbD
      (ReportKind.meterExceeded.code - 1) = false ∧
    assigned.settings.reportEnable.getLsbD (ReportKind.meterExceeded.code - 1) = true ∧
    ((waitingOf 15).kind = .meterExceeded ∧ (waitingOf 15).subject = 15 ∧
      ∀ x ∈ [waitingOf 0] ++ [waitingOf 1], ¬(x.kind = .meterExceeded ∧ x.subject = 15)) ∧
    ((∀ x ∈ (List.range 15).map waitingOf, ¬(x.kind = .meterExceeded ∧ x.subject = 15)) ∧
      ((List.range 15).map waitingOf).length + assigned.sent.length < 16) ∧
    16 ≤ ((List.range 12).map waitingOf).length + (List.replicate 4 (sentOf 0 1 .due)).length := by decide

/-- The linked part with something to send from every source. -/
def offering : State :=
  { linked with
    replies := [waitingReply]
    urgent := [[1]]
    waiting := [waitingOf 0]
    normal := [[2]] }

theorem witness_GrantSelectsInOrderWithTheGuard :
    offering.settings.starvationLimit ≤ ({ offering with starvation := 16 } : State).starvation ∧
    ¬offering.settings.starvationLimit ≤ ({ offering with starvation := 15 } : State).starvation ∧
    (offering.nodeAddress ≠ none ∧ offering.replies ≠ [] ∧ offering.urgent ≠ [] ∧ offering.normal ≠ [] ∧
      offering.sent.length < 4 ∧ offering.waiting ≠ []) := by decide

theorem witness_TransmitStartGrantsTheSelectedCell :
    (offering.resetHeld = false ∧ offering.headTx = .idle ∧ offering.headPort.link = .up) ∧
    selectSource linked = none ∧ selectSource offering = some .reply ∧
    selectSource { offering with replies := [] } = some .urgent ∧
    selectSource { offering with starvation := 16 } = some .normal ∧
    (busy.resetHeld = false ∧ busy.headTx ≠ .idle ∧ State.reset.headPort.link ≠ .up) := by decide +kernel

theorem witness_TransmitStartSendsTheNamedReport :
    selectSource { offering with replies := [], urgent := [] } = some .report ∧ offering.nodeAddress = some 0x21 ∧
    (selectSource { reporting with headPort := upPort } = some .report ∧ reporting.sent.length ≤ 4 ∧
      reporting.sent = [sentOf 4 2 (.timing 0)] ++ sentOf 5 1 .due :: [] ∧ (sentOf 5 1 .due).cond = .due ∧
      (∀ x ∈ [sentOf 4 2 (.timing 0)], x.cond ≠ .due) ∧ ∀ x ∈ [sentOf 4 2 (.timing 0)] ++ [], x.seq ≠ 5) ∧
    ∀ x ∈ offering.sent, x.cond ≠ .due := by decide +kernel

theorem witness_TransmitCompleteTellsTheSource :
    ({ linked with urgent := [[1]], headTx := .sending .urgent [1] } : State).urgent = [1] :: [] ∧
    ({ linked with normal := [[1]], headTx := .sending .normal [1] } : State).normal = [1] :: [] ∧
    (({ linked with replies := [{ waitingReply with inTransmission := true }, waitingReply] } : State).replies =
        { waitingReply with inTransmission := true } :: [waitingReply] ∧
      ∀ x ∈ [waitingReply], x.inTransmission = false) ∧
    busy.headTx = .sending .detached [] ∧ busy.resetHeld = false := by decide

theorem witness_ReportTimerExpiryMakesDueOrAbandons :
    reporting.resetHeld = false ∧ reporting.sent = [] ++ sentOf 4 2 (.timing 0) :: [sentOf 5 1 .due] ∧
    (sentOf 4 2 (.timing 0)).cond = .timing reporting.lineTime ∧
    (∀ x ∈ [] ++ [sentOf 5 1 .due], x.seq ≠ (sentOf 4 2 (.timing 0)).seq) ∧
    (sentOf 4 3 (.timing 0)).sends ≤ 3 ∧ (sentOf 4 4 (.timing 0)).sends = 4 := by decide

theorem witness_RefillRaisesEveryCredit :
    ({ assigned with refillLeft := 0 } : State).resetHeld = false ∧
    ({ assigned with refillLeft := 0 } : State).refillLeft = 0 := by decide

theorem witness_LineTimeStepsEveryMicrosecond : (reporting.resetHeld = false ∧ assigned.refillLeft ≠ 0 ∧
      ∀ r ∈ assigned.sent, r.cond ≠ .timing assigned.lineTime) ∧
    ({ reporting with refillLeft := 0 } : State).refillLeft = 0 ∧
    ∃ r ∈ reporting.sent, r.cond = .timing reporting.lineTime := by decide

theorem witness_EightAlignmentWordsBringAPortUp :
    State.reset.resetHeld = false ∧ State.reset.headPort.link = .down ∧
    ({ Port.resetValue with link := .aligning, run := 6 } : Port).link = .aligning ∧
    ({ Port.resetValue with link := .aligning, run := 6 } : Port).run < 7 ∧
    7 ≤ ({ Port.resetValue with link := .aligning, run := 7 } : Port).run ∧ Symbol.data 0 ≠ .alignment := by decide

theorem witness_SymbolsAreHandledByPosition :
    (linked.resetHeld = false ∧ linked.tailPort.link = .up ∧ linked.tailPort.position = .between) ∧
    ({ upPort with position := .hunting } : Port).position = .hunting ∧
    ((inCellPort 55).position = .inCell ∧ (inCellPort 55).cellBytes < 56) ∧
    (beforeKey.tailRx = .receiving ⟨five ++ [headerCheck five, 1], some ⟨dataHeader 8, 0, 1, 2, none⟩⟩ ∧
      (five ++ [headerCheck five]).length + 1 ≠ 6 + 2) ∧
    (List.replicate 4 (0 : Byte)).length ≠ 5 ∧ (List.replicate 55 (0 : Byte)).length < 56 ∧
    ({ linked with tailPort := inCellPort 55, tailRx := .discarding } : State).tailRx = .discarding ∧
    ({ linked with headPort := inCellPort 55, headRx := .discarding } : State).headRx = .discarding ∧
    ((inCellPort 56).position = .inCell ∧ 56 ≤ (inCellPort 56).cellBytes ∧
      ({ linked with headPort := inCellPort 56, headRx := .receiving (List.replicate 56 0) } : State).headRx =
        .receiving (List.replicate 56 0) ∧ 56 ≤ (List.replicate 56 (0 : Byte)).length) := by
  decide +kernel

theorem witness_ThirdFramingViolationLeavesUp :
    linked.resetHeld = false ∧ linked.headPort.link = .up ∧ violationTo upPort (.data 0) = some .hunting ∧
    violationTo (inCellPort 56) (.data 0) = some .hunting ∧ violationTo (inCellPort 55) (.data 0) = none ∧
    violationTo (inCellPort 3) .startDelimiter = some .inCell ∧ violationTo (inCellPort 3) .alignment = some .between ∧
    ({ upPort with violations := 1 } : Port).violations < 2 ∧ 2 ≤ ({ upPort with violations := 2 } : Port).violations ∧
    upPort.position ≠ .inCell ∧ (inCellPort 56).position = .inCell := by
  decide

theorem witness_LossOfSignalAbortsWhatThePortCarries :
    State.reset.resetHeld = false ∧ State.reset.headPort.link = .down ∧
    ({ Port.resetValue with link := .aligning } : Port).link = .aligning ∧ linked.headPort.link = .up ∧
    linked.headTx = .idle ∧
    ({ linked with urgent := [[1]], headTx := .sending .urgent [1] } : State).headTx = .sending .urgent [1] ∧
    ({ linked with urgent := [[1]], headTx := .sending .urgent [1] } : State).urgent = [1] :: [] ∧
    ({ linked with tailPort := inCellPort 3, downQueue := [[1]], tailTx := .sending } : State).tailPort.link = .up ∧
    ({ linked with tailPort := inCellPort 3, downQueue := [[1]], tailTx := .sending } : State).downQueue = [1] :: [] := by
  decide

/-- The Head port in a cell, with these bytes received. -/
def headAt (n : Nat) (bytes : List Byte) : State :=
  { linked with headPort := inCellPort n, headRx := .receiving bytes }

theorem witness_HeadReceivesACell :
    (linked.resetHeld = false ∧ linked.headPort.link = .up ∧ linked.headPort.position = .between ∧
      linked.headRx = .idle) ∧
    ((headAt 5 five).headPort.position = .inCell ∧ (headAt 5 five).headPort.cellBytes < 56 ∧
      (headAt 5 five).headRx = .receiving five ∧ five.length = 5 ∧ headerCheck five + 1 ≠ headerCheck five ∧
      (headAt 5 five).headPort.cellBad = false ∧ (headerOf (five ++ [headerCheck five])).length ≤ 48) ∧
    ({ headAt 9 [] with headRx := .discarding } : State).headRx = .discarding ∧
    ([1, 2, 3, 4, 5] : List Byte).length < 6 := by decide +kernel

theorem witness_HeadReceivesAFailedCell : ¬PayloadGood (headAt 9 goodCell).headPort.cellBytes
    (headAt 9 goodCell).headPort.cellBad (headerOf goodCell).length goodCell := by
  have h : (headerOf goodCell).length = 2 := by decide +kernel
  rw [h]
  exact goodCell_fails

theorem goodCell_length : (headerOf goodCell).length = 2 := by decide +kernel

theorem witness_GoodHeadCellIsForwardedOrTaken :
    ((headAt 10 goodCell).resetHeld = false ∧ (headAt 10 goodCell).headPort.link = .up ∧
      (headAt 10 goodCell).headPort.position = .inCell ∧ (headAt 10 goodCell).headRx = .receiving goodCell ∧
      6 ≤ goodCell.length ∧ (headerOf goodCell).kind ≠ 3) ∧
    ((headAt 10 goodCell).downQueue.length < 4 ∧ 4 ≤ (List.replicate 4 goodCell).length) ∧
    ((headerOf (buildCell ⟨3, 0, 2, 0x21, 0, 0⟩ [1, 9])).kind = 3 ∧
      some (headerOf (buildCell ⟨3, 0, 2, 0x21, 0, 0⟩ [1, 9])).dest = linked.nodeAddress) ∧
    ((headerOf (buildCell ⟨3, 0, 2, 0xFE, 0, 0⟩ [1, 9])).dest = 0xFE ∧ State.reset.nodeAddress = none) ∧
    (headerOf (buildCell ⟨3, 0, 2, 0xFF, 0, 0⟩ [1, 9])).dest = 0xFF := by decide +kernel

theorem witness_GoodHeadCellPasses : PayloadGood (headAt 10 goodCell).headPort.cellBytes
    (headAt 10 goodCell).headPort.cellBad (headerOf goodCell).length goodCell := by
  rw [goodCell_length]
  exact goodCell_passes

theorem witness_HandedOverPayloadIsTheRequestCommand :
    linked.resetHeld = false ∧ ([1] : List Byte).length < 2 := by decide

theorem witness_TailTransmitterSendsTheOldestCell :
    ({ linked with downQueue := [[1]] } : State).tailTx = .idle ∧
    ({ linked with downQueue := [[1]] } : State).tailPort.link = .up ∧
    ({ linked with downQueue := [[1]] } : State).downQueue = [1] :: [] ∧
    ({ linked with downQueue := [[1]], tailTx := .sending } : State).tailTx = .sending ∧ linked.downQueue = [] ∧
    State.reset.tailPort.link ≠ .up ∧ linked.resetHeld = false := by decide

theorem witness_HeadersAreBuiltReadAndRewritten :
    (dataHeader 48).length = (List.replicate 48 (0 : Byte)).length ∧ (List.replicate 48 (0 : Byte)).length ≤ 48 ∧
    (dataHeader 0).length = ([] : List Byte).length ∧
    (⟨.forward, .normal, some 63, none, none⟩ : Action).rewrite = some 63 ∧ 6 ≤ goodCell.length ∧
    (State.port .tail { linked with tailPort := { upPort with txDriven := false } }).txDriven = false ∧
    (busy.headPort.txDriven = true ∧ busy.headTx = .sending .detached [] ∧ linked.headTx = .idle) ∧
    ({ linked with downQueue := [[1]], tailTx := .sending } : State).tailPort.txDriven = true ∧
    ({ linked with downQueue := [[1]], tailTx := .sending } : State).downQueue = [1] :: [] := by decide +kernel

/-- The state the invariants' witnesses start from: a part out of reset with a LINE_TIME_TICK waiting. -/
def ticking : State := { State.reset with pending := [.lineTimeTick] }

/-- The state its step leads to. -/
def ticked : State := { State.reset with lineTime := 1, refillLeft := 99 }

theorem step_ticking : step ticking = .next ticked := rfl

theorem witness_StepKeepsThePoolAndTheUpstreamAccount :
    (poolBalanced ticking ∧ upstreamBalanced ticking) ∧ step ticking = .next ticked :=
  ⟨⟨rfl, by unfold upstreamBalanced; decide⟩, step_ticking⟩

theorem witness_StepKeepsEveryReferenceCountExact :
    (refsExact ticking ∧ undefinedIsZero ticking) ∧ step ticking = .next ticked :=
  ⟨by unfold refsExact undefinedIsZero; decide +kernel, step_ticking⟩

theorem witness_StepKeepsEntriesClearedAndHeld :
    (emptyIsCleared ticking ∧ retiringIsHeld ticking) ∧ step ticking = .next ticked :=
  ⟨by unfold emptyIsCleared retiringIsHeld; decide +kernel, step_ticking⟩

theorem witness_StepKeepsMetersBoundedAndTheRingOrdered :
    (metersBounded ticking ∧ ringOrdered ticking) ∧ step ticking = .next ticked :=
  ⟨by unfold metersBounded ringOrdered; decide +kernel, step_ticking⟩

theorem witness_StepKeepsTheReportQueueLegal :
    (reportQueueBounded ticking ∧ reportsLegal ticking) ∧ step ticking = .next ticked :=
  ⟨⟨by unfold reportQueueBounded; decide,
    by decide, fun _ h => absurd h List.not_mem_nil, fun h => absurd rfl h, by decide⟩, step_ticking⟩

theorem witness_StepKeepsRepliesBoundedAndCellsHeld :
    (repliesBounded ticking ∧ replyHeld ticking ∧ dataCellHeld ticking) ∧ step ticking = .next ticked :=
  ⟨⟨by unfold repliesBounded; decide,
    ⟨fun _ h => absurd h List.not_mem_nil,
      ⟨fun h => h.elim fun _ h => (nomatch h), fun h => h.elim fun _ h => (nomatch h.1)⟩⟩,
    (fun _ h => nomatch h), (fun _ h => nomatch h)⟩, step_ticking⟩

theorem witness_StepLeavesNoCellUnsent :
    (grantsMade ticking ∧ tailStarted ticking ∧ downstreamBounded ticking) ∧ step ticking = .next ticked :=
  ⟨⟨(fun _ h => nomatch h), (fun _ h => nomatch h), by unfold downstreamBounded; decide⟩, step_ticking⟩

theorem witness_StepKeepsAddressSettingsAndStarvationInRange :
    (addressLegal ticking ∧ settingsInRange ticking ∧ starvationBounded ticking) ∧ step ticking = .next ticked :=
  ⟨⟨(fun _ h => nomatch h), by unfold settingsInRange; decide, by unfold starvationBounded; decide⟩, step_ticking⟩

theorem witness_StepKeepsThePortsLegal :
    (portsLegal ticking ∧ sendsCellsWhileUp ticking) ∧ step ticking = .next ticked :=
  ⟨⟨by unfold portsLegal portLegal; decide, by unfold sendsCellsWhileUp; decide⟩, step_ticking⟩

end Sys2Proof.Tests
end

section
/-! PROOF, the shared layer: positions and bytes of a request's arguments, and what an accepted request and a heard
broadcast leave, given the answer of the owning rule. -/

namespace Sys2Proof.Machine

/-! ### Positions and bytes -/

theorem position_eq_none {n k : Nat} (h : n ≤ k) : position n k = none := dif_neg (by omega)

theorem position_eq_some {n k : Nat} {i : Fin n} (h : k = i.val) : position n k = some i := by
  subst h
  exact dif_pos i.isLt

theorem position_isSome_iff (n k : Nat) : (position n k).isSome = true ↔ k < n := by
  unfold position
  split <;> simp_all

@[simp] theorem argByte_zero_cons (b : Byte) (args : List Byte) : argByte (b :: args) 0 = b := rfl

@[simp] theorem argNat_zero_cons (b : Byte) (args : List Byte) : argNat (b :: args) 0 = b.toNat := rfl

@[simp] theorem argByte_one_cons (a b : Byte) (args : List Byte) : argByte (a :: b :: args) 1 = b := rfl

@[simp] theorem argNat_one_cons (a b : Byte) (args : List Byte) : argNat (a :: b :: args) 1 = b.toNat := rfl

theorem argByte_at_length (before after : List Byte) (b : Byte) :
    argByte (before ++ b :: after) before.length = b := by
  simp [argByte]

theorem toNat_byteOf (n : Nat) : (byteOf n).toNat = n % 256 := BitVec.toNat_ofNat n 8

/-- The code of a position is the byte that named it. -/
theorem byteOf_of_toNat_eq {b : Byte} {n : Nat} (h : b.toNat = n) : byteOf n = b := by
  rw [← h]
  simp [byteOf]

theorem bytes32_value (w : Word32) : ∃ b3 b2 b1 b0 : Byte, bytes32 w = [b3, b2, b1, b0] ∧
    b3.toNat * 16777216 + b2.toNat * 65536 + b1.toNat * 256 + b0.toNat = w.toNat := by
  refine ⟨_, _, _, _, rfl, ?_⟩
  have hw := w.isLt
  simp only [BitVec.extractLsb'_toNat, Nat.shiftRight_eq_div_pow]
  omega

theorem bytes16_value {n : Nat} (h : n < 65536) :
    ∃ b1 b0 : Byte, bytes16 n = [b1, b0] ∧ b1.toNat * 256 + b0.toNat = n := by
  refine ⟨_, _, rfl, ?_⟩
  rw [toNat_byteOf, toNat_byteOf]
  omega

/-! ### Accepted requests and heard broadcasts -/

/-- An accepted request is answered as its owning rule answers. -/
theorem exec_answered {k : Kind} {tag : Byte} {args results : List Byte} {s u : State} {st : Status}
    (h : Accepts k.code tag s) (hk : k ≠ .deviceReset) (hl : k.least ≤ args.length + 2)
    (ha : ownerAnswer k args s = ⟨u, st, results⟩) :
    exec (requestOf k .addressed tag args) s = .next (settle (answered k.code tag st results u)) := by
  rw [exec_accepted h hk hl, ha]

/-- A broadcast that its owning rule answers OK leaves the state of that answer, counted (R163). -/
theorem exec_heard_ok {k : Kind} {tag : Byte} {args results : List Byte} {s u : State} (h : Hears s)
    (hb : k.broadcast = true) (hk : k ≠ .deviceReset) (hl : k.least ≤ args.length + 2)
    (ha : ownerAnswer k args s = ⟨u, .ok, results⟩) :
    exec (requestOf k .broadcast tag args) s = .next (settle (heard u)) := by
  rw [exec_heard h hb hk hl, ha]
  rfl

/-- A broadcast that its owning rule refuses leaves its two counts alone (R163). -/
theorem exec_heard_refused {k : Kind} {tag : Byte} {args : List Byte} {s : State} {st : Status} (h : Hears s)
    (hb : k.broadcast = true) (hk : k ≠ .deviceReset) (hl : k.least ≤ args.length + 2)
    (ha : ownerAnswer k args s = refusal st s) (hst : st ≠ .ok) :
    exec (requestOf k .broadcast tag args) s = .next (settle (heardBadly s)) := by
  rw [exec_heard h hb hk hl, ha, if_neg (show (refusal st s).status ≠ .ok from hst)]
  rfl

end Sys2Proof.Machine
end

section
/-! PROOF. O54: the entries stay cleared and held. What is legal of one entry depends on the entry and on what the
reception holds; every event either leaves both, or ends the reception, or leaves entries that are legal by
themselves. -/

namespace Sys2Proof.Machine

/-- R9, R18: what is legal of the entry at position `i` while the reception holds `held`. -/
structure EntryLegal (held : Option (Fin 64)) (i : Fin 64) (e : Entry) : Prop where
  cleared : e.state = .empty → e = Entry.cleared
  retiring : e.state = .retiring → held = some i

/-- Both invariants of the match table: every entry is legal (R9, R18). -/
def entriesLegal (s : State) : Prop := ∀ i : Fin 64, EntryLegal s.held i s.entries[i]

theorem entriesLegal_iff (s : State) : entriesLegal s ↔ emptyIsCleared s ∧ retiringIsHeld s :=
  ⟨fun h => ⟨fun i => (h i).cleared, fun i => (h i).retiring⟩, fun ⟨hc, hr⟩ i => ⟨hc i, hr i⟩⟩

/-! ### Legal entries -/

theorem EntryLegal.of_cleared (held : Option (Fin 64)) (i : Fin 64) : EntryLegal held i Entry.cleared :=
  ⟨fun _ => rfl, fun h => nomatch h⟩

theorem EntryLegal.of_pending {held : Option (Fin 64)} {i : Fin 64} {e : Entry} (h : e.state = .pending) :
    EntryLegal held i e :=
  ⟨fun h' => absurd (h.symm.trans h') (by decide), fun h' => absurd (h.symm.trans h') (by decide)⟩

theorem EntryLegal.of_live {held : Option (Fin 64)} {i : Fin 64} {e : Entry} (h : e.state = .live) :
    EntryLegal held i e :=
  ⟨fun h' => absurd (h.symm.trans h') (by decide), fun h' => absurd (h.symm.trans h') (by decide)⟩

theorem EntryLegal.hold {held held' : Option (Fin 64)} {i : Fin 64} {e : Entry} (h : EntryLegal held i e)
    (hh : held = some i → held' = some i) : EntryLegal held' i e := ⟨h.cleared, fun hr => hh (h.retiring hr)⟩

/-- Retirement leaves a legal entry (R18). -/
theorem EntryLegal.retired {i : Fin 64} {s : State} (h : EntryLegal s.held i s.entries[i]) :
    EntryLegal s.held i (retiredEntry i s) := by
  unfold retiredEntry
  split
  · split
    · exact ⟨fun h' => (by cases h'), fun _ => by assumption⟩
    · exact .of_cleared _ i
  · exact .of_cleared _ i
  · exact h
  · exact h

/-! ### Events that keep the table -/

/-- The same entries are legal while the reception holds at least what it held. -/
theorem entriesLegal_of_held {s u : State} (hs : entriesLegal s) (he : u.entries = s.entries)
    (hh : ∀ i, s.held = some i → u.held = some i) : entriesLegal u := by
  intro i
  rw [he]
  exact (hs i).hold (hh i)

/-- The same entries and the same reception are legal. -/
theorem entriesLegal_congr {s u : State} (hs : entriesLegal s) (he : u.entries = s.entries)
    (ht : u.tailRx = s.tailRx) : entriesLegal u :=
  entriesLegal_of_held hs he (fun i hi => by rw [held_congr ht, hi])

/-- A table without a RETIRING entry stays legal whatever the reception becomes. -/
theorem entriesLegal_of_unheld {s u : State} (hs : entriesLegal s) (he : u.entries = s.entries)
    (hh : s.held = none) : entriesLegal u :=
  entriesLegal_of_held hs he (fun i hi => by rw [hh] at hi; cases hi)

/-- The power-on table is legal (R28). -/
theorem entriesLegal_of_reset {u : State} (he : u.entries = State.reset.entries) : entriesLegal u := by
  intro i
  have hi : u.entries[i] = Entry.cleared := by rw [he]; simp [State.reset]
  rw [hi]
  exact .of_cleared _ i

/-- One changed entry keeps the table legal if it is legal itself. -/
theorem ChangesEntry.entriesLegal {i : Fin 64} {e : Entry} {s u : State} (h : ChangesEntry i e s u)
    (he : EntryLegal s.held i e) (hs : entriesLegal s) : entriesLegal u := by
  have hh : u.held = s.held := held_congr (by rw [h.rest])
  intro j
  rw [hh, h.entries]
  split
  · rename_i hij; subst hij; exact he
  · exact hs j

theorem entriesLegal_occur (k : ReportKind) (n : Nat) (s : State) (hs : entriesLegal s) :
    entriesLegal (occur k n s) := by
  obtain ⟨_, _, _, h⟩ := occur_frame k n s
  exact entriesLegal_congr hs (by rw [h]) (by rw [h])

theorem entriesLegal_deviceReset (s : State) : entriesLegal (deviceReset s) := by
  rw [deviceReset_eq]
  exact entriesLegal_of_reset rfl

/-! ### The end of a reception -/

/-- After the release no entry is RETIRING, and the reception may end (R12, R18). -/
theorem entriesLegal_released {s u : State} (he : u.entries = (releaseHeld s).entries) (hs : entriesLegal s) :
    entriesLegal u := by
  intro i
  rw [he, (releaseHeld_released s).entries]
  split
  · exact .of_cleared _ i
  · rename_i h
    exact ⟨(hs i).cleared, fun hr => absurd ⟨(hs i).retiring hr, hr⟩ h⟩

theorem entriesLegal_failReception (c : Counter) (s : State) (hs : entriesLegal s) :
    entriesLegal (failReception c s) := by
  obtain ⟨_, h⟩ := failReception_eq c s
  exact entriesLegal_released (by rw [h]) hs

theorem entriesLegal_closeCell (o : CellOutcome) (c : Cell) (s : State) (hs : entriesLegal s) :
    entriesLegal (closeCell o c s) :=
  entriesLegal_released (by cases o <;> rfl) hs

theorem entriesLegal_disposeCell (v : Verdict) (h : Header) (buf : List Byte) (s : State) (hs : entriesLegal s) :
    entriesLegal (disposeCell v h buf s) := by
  unfold disposeCell
  dsimp only
  refine entriesLegal_closeCell _ _ _ ?_
  obtain ⟨_, _, _, _, _, h1⟩ := countVerdict_frame v h buf s
  obtain ⟨_, _, _, h2⟩ := countOutcome_frame (decideOutcome v (countVerdict v h buf s)) (countVerdict v h buf s)
  obtain ⟨_, _, _, _, _, h3⟩ := captureCell_frame v (decideOutcome v (countVerdict v h buf s)) h buf
    (countOutcome (decideOutcome v (countVerdict v h buf s)) (countVerdict v h buf s))
  exact entriesLegal_congr hs (by rw [h3, h2, h1]) (by rw [h3, h2, h1])

/-! ### Key-complete -/

/-- A reception without a verdict holds no entry (R12). -/
theorem held_of_unverdicted {s : State} {r : Reception} {l : Latched} (hx : s.tailRx = .receiving r)
    (hr : r.hdr = some l) (hv : l.verdict = none) : s.held = none := by
  simp [State.held, hx, hr, hv]

/-- Classification changes a hit count of a LIVE entry alone, and so it keeps the table legal (R11, R14). -/
theorem Classified.entryLegal {key : Key} {s w : State} {v : Verdict} (h : Classified key s w v)
    (held : Option (Fin 64)) (hh : s.held = none) (hs : entriesLegal s) (i : Fin 64) :
    EntryLegal held i w.entries[i] := by
  rw [h.hits]
  split
  · rename_i hi
    have hl : s.entries[i].state = .live := findHit_live (by rw [← h.entry, hi])
    exact .of_live hl
  · exact (hs i).hold (fun hi => by rw [hh] at hi; cases hi)

theorem entriesLegal_reachVerdict {r : Reception} {l : Latched} {s : State} (hx : s.tailRx = .receiving r)
    (hr : r.hdr = some l) (hs : entriesLegal s) : entriesLegal (reachVerdict r l s).1 := by
  unfold reachVerdict
  split
  · exact hs
  · rename_i hv
    exact fun i => (formVerdict_classified l r.buf s).entryLegal _ (held_of_unverdicted hx hr hv) hs i

/-! ### The events on Tail -/

theorem entriesLegal_tailEnd (ok : Nat → List Byte → Bool) (s : State) (hs : entriesLegal s) :
    entriesLegal (tailEnd ok s) := by
  unfold tailEnd
  split
  · rename_i r hx
    split
    · exact entriesLegal_failReception _ s hs
    · rename_i l hr
      have hk := entriesLegal_reachVerdict hx hr hs
      unfold endReception
      dsimp only
      split
      · exact entriesLegal_disposeCell _ _ _ _ hk
      · exact entriesLegal_failReception _ _ hk
  · exact hs
  · rename_i hx
    exact entriesLegal_of_unheld hs rfl (by simp [State.held, hx])

theorem entriesLegal_tailAbort (s : State) (hs : entriesLegal s) : entriesLegal (tailAbort s) := by
  unfold tailAbort
  split
  · exact entriesLegal_failReception _ s hs
  · exact hs
  · rename_i hx
    exact entriesLegal_of_unheld hs rfl (by simp [State.held, hx])

theorem entriesLegal_tailStartOfCell (s : State) (hs : entriesLegal s) : entriesLegal (tailStartOfCell s) := by
  cases hx : s.tailRx with
  | idle =>
    obtain ⟨_, _, _, _, _, h⟩ := tailStartOfCell_frame s
    exact entriesLegal_of_unheld hs (by rw [h]) (by simp [State.held, hx])
  | receiving r => unfold tailStartOfCell; rw [hx]; exact hs
  | discarding => unfold tailStartOfCell; rw [hx]; exact hs

theorem entriesLegal_tailHeaderComplete {r : Reception} {s : State} (hx : s.tailRx = .receiving r)
    (hr : r.hdr = none) (hs : entriesLegal s) : entriesLegal (tailHeaderComplete r s) := by
  have hh : s.held = none := by simp [State.held, hx, hr]
  unfold tailHeaderComplete
  dsimp only
  split
  · exact entriesLegal_of_unheld hs rfl hh
  · split
    · exact entriesLegal_reachVerdict rfl rfl (entriesLegal_of_unheld hs rfl hh)
    · exact entriesLegal_of_unheld hs rfl hh

theorem entriesLegal_tailByte (b : Byte) (s : State) (hs : entriesLegal s) : entriesLegal (tailByte b s) := by
  unfold tailByte
  split
  · rename_i r hx
    have hs' : entriesLegal { s with tailRx := .receiving { r with buf := r.buf ++ [b] } } :=
      entriesLegal_of_held hs rfl (fun i hi => by rw [← hi]; simp [State.held, hx])
    split
    · dsimp only
      split
      · rename_i hr
        split
        · exact entriesLegal_tailHeaderComplete rfl hr hs'
        · exact hs'
      · rename_i l hr
        split
        · exact entriesLegal_reachVerdict rfl hr hs'
        · exact hs'
    · exact hs
  · exact hs
  · exact hs

/-! ### The events on Head and the transmissions -/

theorem entriesLegal_headTxEnd (e : TxEnd) (s : State) (hs : entriesLegal s) : entriesLegal (headTxEnd e s) := by
  unfold headTxEnd
  split
  · exact hs
  · rename_i src cell _
    obtain ⟨_, _, _, hc⟩ := recordCut_frame .head e cell s
    have hs' : entriesLegal { recordCut .head e cell s with headTx := .idle } :=
      entriesLegal_congr hs (by rw [hc]) (by rw [hc])
    generalize ({ recordCut .head e cell s with headTx := .idle } : State) = u at hs'
    cases src with
    | urgent =>
      unfold endUrgent
      dsimp only
      split
      · exact entriesLegal_congr hs' rfl rfl
      · exact hs'
    | normal =>
      unfold endNormal
      dsimp only
      split
      · exact entriesLegal_congr hs' rfl rfl
      · exact hs'
    | reply =>
      obtain ⟨rs, h | h⟩ := endReply_cases u
      · dsimp only
        rw [h]
        exact entriesLegal_congr hs' rfl rfl
      · dsimp only
        rw [h, ← deviceReset_after]
        exact entriesLegal_deviceReset _
    | report q => exact entriesLegal_congr hs' rfl rfl
    | detached => exact hs'

theorem entriesLegal_tailTxEnd (e : TxEnd) (s : State) (hs : entriesLegal s) : entriesLegal (tailTxEnd e s) := by
  obtain ⟨_, _, _, _, _, h⟩ := tailTxEnd_frame e s
  exact entriesLegal_congr hs (by rw [h]) (by rw [h])

/-! ### The taking of a request -/

/-- The five request kinds that write the match table. -/
def Kind.writesEntries : Kind → Bool
  | .entryWrite => true
  | .batchActivate => true
  | .entryRetire => true
  | .batchRetire => true
  | .batchDiscard => true
  | _ => false

theorem moveRef_keeps_entries {f : Fin 32 → State → State} (a : Option (Fin 32)) (s : State)
    (hf : ∀ a s, (f a s).entries = s.entries ∧ (f a s).tailRx = s.tailRx) :
    (moveRef f a s).entries = s.entries ∧ (moveRef f a s).tailRx = s.tailRx := by
  cases a with
  | none => exact ⟨rfl, rfl⟩
  | some a => exact hf a s

theorem setSetting_keeps_entries (i : SettingItem) (v : Nat) (s : State) :
    (setSetting i v s).entries = s.entries ∧ (setSetting i v s).tailRx = s.tailRx := by
  cases i with
  | missAction =>
    unfold setSetting setMissAction
    dsimp only
    split
    · exact ⟨rfl, rfl⟩
    · obtain ⟨h1, h2⟩ := moveRef_keeps_entries (f := addRef) (position 32 v)
        (moveRef dropRef s.settings.missAction s) (fun _ _ => ⟨rfl, rfl⟩)
      obtain ⟨h3, h4⟩ := moveRef_keeps_entries (f := dropRef) s.settings.missAction s (fun _ _ => ⟨rfl, rfl⟩)
      exact ⟨h1.trans h3, h2.trans h4⟩
  | _ => exact ⟨rfl, rfl⟩

/-- The other owning rules reach neither the match table nor the reception. -/
theorem ownerAnswer_keeps_entries {k : Kind} (hk : k.writesEntries = false) (args : List Byte) (s : State) :
    (ownerAnswer k args s).st.entries = s.entries ∧ (ownerAnswer k args s).st.tailRx = s.tailRx := by
  cases k with
  | entryWrite => cases hk
  | batchActivate => cases hk
  | entryRetire => cases hk
  | batchRetire => cases hk
  | batchDiscard => cases hk
  | settingWrite =>
    simp only [ownerAnswer, answerSettingWrite, refusal]
    repeat' split
    all_goals first | exact ⟨rfl, rfl⟩ | exact setSetting_keeps_entries _ _ s
  | _ =>
    dsimp only [ownerAnswer, answerPing, answerIdentRead, answerAddressAssign, answerSettingRead, answerEntryRead,
      answerActionWrite, answerActionRead, answerActionClear, answerMeterWrite, answerMeterRead,
      answerBinruleWrite, answerBinruleRead, answerBinsRead, answerBinsReadClear, answerBinsClear,
      answerCaptureFetch, answerCaptureRelease, answerReportAck, answerStatsRead, answerStatsClear,
      answerDeviceReset, refusal]
    repeat' split
    all_goals exact ⟨rfl, rfl⟩

/-- A change made at every position keeps the table legal if what it makes of an entry is legal. -/
theorem entriesLegal_atEveryPosition {f : Fin 64 → State → State} {g : Fin 64 → State → Entry}
    (hf : ∀ i s, ChangesEntry i (g i s) s (f i s))
    (hg : ∀ i s, entriesLegal s → EntryLegal s.held i (g i s)) (s : State) (hs : entriesLegal s) :
    entriesLegal (atEveryPosition f s) := by
  unfold atEveryPosition
  generalize List.finRange 64 = l
  induction l generalizing s with
  | nil => exact hs
  | cons i l ih => exact ih _ ((hf i s).entriesLegal (hg i s hs) hs)

theorem entryOfArgs_pending {args : List Byte} {a : Fin 32} {e : Entry} (h : entryOfArgs args a = some e) :
    e.state = .pending := by
  unfold entryOfArgs at h
  split at h <;> cases h
  rfl

theorem entriesLegal_writeEntry {i : Fin 64} {e : Entry} {s : State} (he : e.state = .pending)
    (hs : entriesLegal s) : entriesLegal (writeEntry i e s) := by
  have hset : entriesLegal (s.setEntry i e) :=
    (ChangesEntry.set i e s (by rw [he]; decide)).entriesLegal (.of_pending he) hs
  unfold writeEntry
  dsimp only
  repeat' split
  all_goals exact entriesLegal_congr hset rfl rfl

theorem entriesLegal_ownerAnswer (k : Kind) (args : List Byte) (s : State) (hs : entriesLegal s) :
    entriesLegal (ownerAnswer k args s).st := by
  cases hk : k.writesEntries with
  | false =>
    obtain ⟨he, ht⟩ := ownerAnswer_keeps_entries hk args s
    exact entriesLegal_congr hs he ht
  | true =>
    cases k with
    | entryWrite =>
      simp only [ownerAnswer, answerEntryWrite, refusal]
      split
      · exact hs
      · split
        · exact hs
        · split
          · exact hs
          · rename_i he
            repeat' split
            all_goals first | exact hs | exact entriesLegal_writeEntry (entryOfArgs_pending he) hs
    | batchActivate =>
      simp only [ownerAnswer, answerBatchActivate, refusal]
      split
      · dsimp only
        refine entriesLegal_atEveryPosition (activateAt_changes _ _) (fun i s hs => ?_) s hs
        split
        · exact .of_live rfl
        · split
          · exact (hs i).retired
          · exact hs i
      · exact hs
    | entryRetire =>
      simp only [ownerAnswer, answerEntryRetire, refusal]
      split
      · exact hs
      · exact (retireEntry_changes _ s).entriesLegal (hs _).retired hs
    | batchRetire =>
      simp only [ownerAnswer, answerBatchRetire, refusal]
      split
      · exact hs
      · dsimp only
        refine entriesLegal_atEveryPosition (retireIfIn_changes _) (fun i s hs => ?_) s hs
        split
        · exact (hs i).retired
        · exact hs i
    | batchDiscard =>
      simp only [ownerAnswer, answerBatchDiscard, refusal]
      split
      · exact hs
      · dsimp only
        refine entriesLegal_atEveryPosition (discardIfIn_changes _) (fun i s hs => ?_) s hs
        split
        · exact .of_cleared _ i
        · exact hs i
    | _ => cases hk

/-! ### Every event -/

theorem entriesLegal_keptByTakingParts : KeptByTakingParts entriesLegal where
  reset s _ := entriesLegal_deviceReset s
  owner := entriesLegal_ownerAnswer
  count _ _ _ hs := entriesLegal_congr hs rfl rfl
  queue _ _ _ hs := entriesLegal_congr hs rfl rfl
  store _ _ hs := entriesLegal_congr hs rfl rfl

theorem entriesLegal_takePayload (f : Form) (payload : List Byte) (s : State) (hs : entriesLegal s) :
    entriesLegal (takePayload f payload s) := by
  unfold takePayload
  split
  · exact entriesLegal_keptByTakingParts.take f _ _ _ s hs
  · exact entriesLegal_congr hs rfl rfl

theorem entriesLegal_joinDownstream (c : Cell) (s : State) (hs : entriesLegal s) :
    entriesLegal (joinDownstream c s) := by
  obtain ⟨_, _, h⟩ := joinDownstream_frame c s
  exact entriesLegal_congr hs (by rw [h]) (by rw [h])

theorem entriesLegal_headEnd (ok : Nat → List Byte → Bool) (s : State) (hs : entriesLegal s) :
    entriesLegal (headEnd ok s) := by
  unfold headEnd
  split
  · dsimp only
    split
    · exact entriesLegal_congr hs rfl rfl
    · split
      · unfold acceptDownstream
        dsimp only
        split
        · exact entriesLegal_takePayload _ _ _ (entriesLegal_congr hs rfl rfl)
        · exact entriesLegal_joinDownstream _ _ (entriesLegal_congr hs rfl rfl)
        · exact entriesLegal_takePayload _ _ _ (entriesLegal_joinDownstream _ _ (entriesLegal_congr hs rfl rfl))
      · exact entriesLegal_congr hs rfl rfl
  · exact hs
  · exact entriesLegal_congr hs rfl rfl

theorem entriesLegal_keptByPortParts : KeptByPortParts entriesLegal where
  port p x s hs := entriesLegal_congr hs (by simp) (by simp)
  start p s hs := by
    cases p with
    | head =>
      obtain ⟨_, h⟩ := headStartOfCell_frame s
      exact entriesLegal_congr hs (by simp only [startEvent]; rw [h]) (by simp only [startEvent]; rw [h])
    | tail => exact entriesLegal_tailStartOfCell s hs
  byte p b s hs := by
    cases p with
    | head =>
      obtain ⟨_, _, h⟩ := headByte_frame b s
      exact entriesLegal_congr hs (by simp only [byteEvent]; rw [h]) (by simp only [byteEvent]; rw [h])
    | tail => exact entriesLegal_tailByte b s hs
  stop p s hs := by
    cases p with
    | head => exact entriesLegal_headEnd _ s hs
    | tail => exact entriesLegal_tailEnd _ s hs
  fail p s hs := by
    cases p with
    | head => exact entriesLegal_headEnd _ s hs
    | tail => exact entriesLegal_tailEnd _ s hs
  abort p s hs := by
    cases p with
    | head =>
      obtain ⟨_, _, h⟩ := headAbort_frame s
      exact entriesLegal_congr hs (by simp only [abortEvent]; rw [h]) (by simp only [abortEvent]; rw [h])
    | tail => exact entriesLegal_tailAbort s hs
  txAbort p s hs := by
    cases p with
    | head => exact entriesLegal_headTxEnd _ s hs
    | tail => exact entriesLegal_tailTxEnd _ s hs
  link n s hs := entriesLegal_occur _ n s hs

theorem entriesLegal_keptByEvents : KeptByEvents entriesLegal where
  pending _ _ hs := entriesLegal_congr hs rfl rfl
  powerOn _ _ := entriesLegal_of_reset rfl
  hold _ hs := entriesLegal_congr hs rfl rfl
  freeIndex _ _ hs := entriesLegal_congr hs rfl rfl
  grant s hs := by
    obtain ⟨_, _, _, _, _, _, _, h⟩ := headGrant_frame s
    exact entriesLegal_congr hs (by rw [h]) (by rw [h])
  start s hs := by
    obtain ⟨_, h⟩ := tailStart_frame s
    exact entriesLegal_congr hs (by rw [h]) (by rw [h])
  headTx := entriesLegal_headTxEnd
  tailTx := entriesLegal_tailTxEnd
  symbol := entriesLegal_keptByPortParts.receive
  detect := entriesLegal_keptByPortParts.detect
  lose := entriesLegal_keptByPortParts.lose
  take := entriesLegal_keptByTakingParts.take
  refill s hs := by
    obtain ⟨_, _, h⟩ := expireRefill_frame s
    exact entriesLegal_congr hs (by rw [h]) (by rw [h])
  expire q s hs := by
    obtain ⟨_, _, h⟩ := expireSequence_frame q s
    exact entriesLegal_congr hs (by rw [h]) (by rw [h])
  advance _ hs := entriesLegal_congr hs rfl rfl

/-- Settles O54: each kind of event keeps every entry legal, and so does every step. -/
theorem stepKeepsEntriesClearedAndHeld : Obligations.StepKeepsEntriesClearedAndHeld := by
  intro s t hs he
  rw [← entriesLegal_iff] at hs ⊢
  exact entriesLegal_keptByEvents.step s t hs he

end Sys2Proof.Machine
end

section
/-! PROOF. O5 and O27: the power-on values, and what classification finds. -/

namespace Sys2Proof.Machine

/-- Settles O5: POWER_ON_RESET answers the reset state, whose tables hold one value at every position. -/
theorem powerOnResetGivesEveryResetValue : Obligations.PowerOnResetGivesEveryResetValue := by
  intro s
  refine ⟨_, rfl, ?_, ?_, ?_, rfl, ?_, ?_, rfl, rfl, rfl, rfl, rfl, rfl, rfl, rfl, rfl, rfl, rfl, rfl, rfl, rfl,
    rfl, rfl, ?_, rfl, rfl, rfl, rfl, rfl, rfl, rfl, rfl, rfl, rfl, rfl⟩
  case refine_1 => intro i; simp [State.reset]
  case refine_2 => intro a; simp [State.reset, ActionRecord.undefined, Action.zero]
  case refine_3 => intro m; simp [State.reset, Meter.resetValue]
  case refine_4 => intro b; simp [State.reset]
  case refine_5 => intro n; simp [State.reset, BinRule.resetValue, BinConfig.resetValue]
  case refine_6 => intro p; cases p <;> exact ⟨rfl, rfl, rfl, rfl, rfl, rfl⟩

/-! ### Matching -/

/-- A masked field matches when key and value agree in every bit whose care is 1 (R6). -/
theorem maskedMatch_iff {w : Nat} (key value care : BitVec w) :
    maskedMatch key value care = true ↔
      ∀ j : Nat, care.getLsbD j = true → key.getLsbD j = value.getLsbD j := by
  unfold maskedMatch
  rw [beq_iff_eq]
  constructor
  · intro h j hj
    have := congrArg (BitVec.getLsbD · j) h
    simpa [hj] using this
  · intro h
    refine BitVec.eq_of_getLsbD_eq fun j _ => ?_
    cases hj : care.getLsbD j with
    | false => simp [hj]
    | true => simp [hj, h j hj]

/-- The LIVE entries that match are what a search over the table looks for (R10). -/
theorem hitsAt_iff (k : Key) (s : State) (i : Fin 64) :
    hitsAt k s i = true ↔ s.entries[i].state = .live ∧ entryMatches s.entries[i] k = true := by
  unfold hitsAt
  rw [Bool.and_eq_true, beq_iff_eq]

theorem hitsAt_eq_false_iff (k : Key) (s : State) (i : Fin 64) :
    hitsAt k s i = false ↔ ¬(s.entries[i].state = .live ∧ entryMatches s.entries[i] k = true) := by
  rw [← hitsAt_iff, Bool.not_eq_true]

/-- The presence requirement of an entry, one implication per requirement (R7). -/
theorem presenceHolds_iff (p : Presence) (k : Key) :
    presenceHolds p k = true ↔
      (p = .bothPresent → k.probe0Present = true ∧ k.probe1Present = true) ∧
        (p = .anyAbsent → k.probe0Present = false ∨ k.probe1Present = false) := by
  cases p with
  | any => simp [presenceHolds]
  | bothPresent => simp [presenceHolds]
  | anyAbsent => simp [presenceHolds]

/-- Classification is the search for the lowest position, as the library knows it (R10). -/
theorem findHit_eq_find? (k : Key) (s : State) : findHit k s = Fin.find? (hitsAt k s) :=
  Fin.find?_eq_find?_finRange.symm

/-- Settles O27: what a match is, and what a search of the table for the lowest match answers. -/
theorem classificationFindsTheFirstLiveMatch : Obligations.ClassificationFindsTheFirstLiveMatch := by
  intro k s
  refine ⟨fun e => ?_, fun i => ?_, ?_⟩
  · unfold entryMatches
    simp only [Bool.and_eq_true, decide_eq_true_eq, maskedMatch_iff, presenceHolds_iff, forall_and, and_assoc]
  · rw [findHit_eq_find?, Fin.find?_eq_some_iff]
    simp only [hitsAt_iff, hitsAt_eq_false_iff]
  · rw [findHit_eq_find?, Fin.find?_eq_none_iff]
    simp only [hitsAt_eq_false_iff]

end Sys2Proof.Machine
end

section
/-! PROOF. O14: the four reads, one equation per position in the table and one past its end. -/

namespace Sys2Proof.Machine

theorem settingItemOf_of_lt {n : Nat} (h : n < 8) (t : Settings) : ∃ i, settingItemOf n = some i ∧
    settingCode i t = [missActionCode t.missAction, t.probe0Offset, t.probe1Offset, t.normalLimit,
      t.refillInterval, t.reportTimeout, t.reportEnable.toNat, t.starvationLimit][n]'h := by
  interval_cases n
  all_goals exact ⟨_, rfl, rfl⟩

theorem settingItemOf_of_le {n : Nat} (h : 8 ≤ n) : settingItemOf n = none := by
  obtain ⟨m, rfl⟩ := Nat.exists_eq_add_of_le' h
  rfl

/-- SETTING_READ of an item (R172). -/
theorem answerSettingRead_of_lt {b : Byte} {n : Nat} (hb : b.toNat = n) (h : n < 8) (more : List Byte)
    (s : State) : answerSettingRead (b :: more) s = ⟨s, .ok, b :: bytes16 ([missActionCode s.settings.missAction,
      s.settings.probe0Offset, s.settings.probe1Offset, s.settings.normalLimit, s.settings.refillInterval,
      s.settings.reportTimeout, s.settings.reportEnable.toNat, s.settings.starvationLimit][n]'h)⟩ := by
  obtain ⟨i, hi, hc⟩ := settingItemOf_of_lt h s.settings
  simp only [answerSettingRead, argNat_zero_cons, argByte_zero_cons, hb, hi, hc]

theorem answerSettingRead_of_le {b : Byte} (h : 8 ≤ b.toNat) (more : List Byte) (s : State) :
    answerSettingRead (b :: more) s = refusal .badIndex s := by
  simp only [answerSettingRead, argNat_zero_cons, settingItemOf_of_le h]

/-- ENTRY_READ of a position (R17). -/
theorem answerEntryRead_at {b : Byte} {i : Fin 64} (h : b.toNat = i.val) (more : List Byte) (s : State) :
    answerEntryRead (b :: more) s = ⟨s, .ok, [b, s.entries[i].state.code] ++ entryFieldBytes s.entries[i] ++
      bytes32 s.entries[i].hits⟩ := by
  simp only [answerEntryRead, argNat_zero_cons, position_eq_some h, byteOf_of_toNat_eq h]

theorem answerEntryRead_past {b : Byte} (h : 63 < b.toNat) (more : List Byte) (s : State) :
    answerEntryRead (b :: more) s = refusal .badIndex s := by
  simp only [answerEntryRead, argNat_zero_cons, position_eq_none (n := 64) h]

/-- METER_READ of a position (R56). -/
theorem answerMeterRead_at {b : Byte} {m : Fin 16} (h : b.toNat = m.val) (more : List Byte) (s : State) :
    answerMeterRead (b :: more) s = ⟨s, .ok, [b] ++ bytes16 s.meters[m].rate ++ bytes16 s.meters[m].burst ++
      [s.meters[m].policy.code] ++ bytes16 s.meters[m].credit ++ [flagByte s.meters[m].inExcess] ++
      bytes32 s.meters[m].conform ++ bytes32 s.meters[m].exceed⟩ := by
  simp only [answerMeterRead, argNat_zero_cons, position_eq_some h, byteOf_of_toNat_eq h]

theorem answerMeterRead_past {b : Byte} (h : 15 < b.toNat) (more : List Byte) (s : State) :
    answerMeterRead (b :: more) s = refusal .badIndex s := by
  simp only [answerMeterRead, argNat_zero_cons, position_eq_none (n := 16) h]

/-- BINRULE_READ of a position (R71). -/
theorem answerBinruleRead_at {b : Byte} {n : Fin 8} (h : b.toNat = n.val) (more : List Byte) (s : State) :
    answerBinruleRead (b :: more) s = ⟨s, .ok, [b] ++ binConfigBytes s.rules[n].cfg ++
      bytes32 s.rules[n].counted ++ bytes32 s.rules[n].gatedOut ++ bytes32 s.rules[n].sourceAbsent⟩ := by
  simp only [answerBinruleRead, argNat_zero_cons, position_eq_some h, byteOf_of_toNat_eq h]

theorem answerBinruleRead_past {b : Byte} (h : 7 < b.toNat) (more : List Byte) (s : State) :
    answerBinruleRead (b :: more) s = refusal .badIndex s := by
  simp only [answerBinruleRead, argNat_zero_cons, position_eq_none (n := 8) h]

/-- Settles O14: the codes and the byte orders, and what each of the four reads answers. -/
theorem readRequestsAnswerWhatStands : Obligations.ReadRequestsAnswerWhatStands := by
  refine ⟨by decide, ⟨fun n h => ?_, fun n => bytes16_value, bytes32_value, fun before after b => ?_⟩,
    fun tag item more s hs => ⟨fun h => ?_, fun h => ?_⟩,
    fun tag pos more s hs => ⟨fun i hi e he => ?_, fun h => ?_⟩,
    fun tag pos more s => ⟨fun hs => ⟨fun m x hm hx => ?_, fun h => ?_⟩,
      fun hs => ⟨fun n r hn hr => ?_, fun h => ?_⟩⟩⟩
  · rw [toNat_byteOf, Nat.mod_eq_of_lt h]
  · have hb := argByte_at_length before after b
    exact ⟨hb, congrArg BitVec.toNat hb⟩
  · exact exec_answered (k := .settingRead) hs (by decide) (Nat.le_add_left _ _)
      (answerSettingRead_of_lt rfl h more s)
  · exact exec_answered (k := .settingRead) hs (by decide) (Nat.le_add_left _ _)
      (answerSettingRead_of_le h more s)
  · subst he
    exact exec_answered (k := .entryRead) hs (by decide) (Nat.le_add_left _ _) (answerEntryRead_at hi more s)
  · exact exec_answered (k := .entryRead) hs (by decide) (Nat.le_add_left _ _) (answerEntryRead_past h more s)
  · subst hx
    exact exec_answered (k := .meterRead) hs (by decide) (Nat.le_add_left _ _) (answerMeterRead_at hm more s)
  · exact exec_answered (k := .meterRead) hs (by decide) (Nat.le_add_left _ _) (answerMeterRead_past h more s)
  · subst hr
    exact exec_answered (k := .binruleRead) hs (by decide) (Nat.le_add_left _ _) (answerBinruleRead_at hn more s)
  · exact exec_answered (k := .binruleRead) hs (by decide) (Nat.le_add_left _ _) (answerBinruleRead_past h more s)

end Sys2Proof.Machine
end

section
/-! PROOF. O15: ENTRY_WRITE. What the arguments carry is said once by `EntryCarried`. -/

namespace Sys2Proof.Machine

/-! ### The entry that the arguments carry -/

theorem presenceOf_isSome_iff (b : Byte) : (presenceOf b).isSome = true ↔ b.toNat ≤ 2 := by
  revert b
  decide

@[simp] theorem presenceOf_code (p : Presence) : presenceOf p.code = some p := by
  cases p <;> rfl

/-- R16, R216: the arguments of an ENTRY_WRITE, from the batch on, are the fields of this PENDING entry. -/
structure EntryCarried (args : List Byte) (e : Entry) : Prop where
  state : e.state = .pending
  batch : argNat args 1 = e.batch.val
  kindValue : argNat args 2 = e.kindValue.toNat
  kindCare : argNat args 3 = e.kindCare.toNat
  channelValue : argNat args 4 = e.channelValue.toNat
  channelCare : argNat args 5 = e.channelCare.toNat
  destValue : argByte args 6 = e.destValue
  destCare : argByte args 7 = e.destCare
  srcValue : argByte args 8 = e.srcValue
  srcCare : argByte args 9 = e.srcCare
  lengthMin : argNat args 10 = e.lengthMin
  lengthMax : argNat args 11 = e.lengthMax
  probe0Value : argByte args 12 = e.probe0Value
  probe0Care : argByte args 13 = e.probe0Care
  probe1Value : argByte args 14 = e.probe1Value
  probe1Care : argByte args 15 = e.probe1Care
  presence : argByte args 16 = e.presence.code
  firstHit : (argByte args 18 != 0) = e.firstHit
  hits : e.hits = 0

/-- The entry that the arguments carry is the one that ENTRY_WRITE reads from them. -/
theorem EntryCarried.entryOfArgs {args : List Byte} {e : Entry} (h : EntryCarried args e) :
    entryOfArgs args e.action = some e := by
  unfold Machine.entryOfArgs
  rw [position_eq_some h.batch, position_eq_some (i := (e.kindValue.toFin : Fin 16)) h.kindValue,
    position_eq_some (i := (e.kindCare.toFin : Fin 16)) h.kindCare,
    position_eq_some (i := (e.channelValue.toFin : Fin 64)) h.channelValue,
    position_eq_some (i := (e.channelCare.toFin : Fin 64)) h.channelCare, h.presence, presenceOf_code]
  dsimp only
  rw [h.destValue, h.destCare, h.srcValue, h.srcCare, h.lengthMin, h.lengthMax, h.probe0Value, h.probe0Care,
    h.probe1Value, h.probe1Care, h.firstHit, ← h.state, ← h.hits]

/-- The third check of R15, but for the length range: the fields that have fewer values than their byte. -/
theorem entryOfArgs_isSome_iff (args : List Byte) (a : Fin 32) : (entryOfArgs args a).isSome = true ↔
    argNat args 1 ≤ 7 ∧ argNat args 2 ≤ 15 ∧ argNat args 3 ≤ 15 ∧ argNat args 4 ≤ 63 ∧ argNat args 5 ≤ 63 ∧
      argNat args 16 ≤ 2 := by
  have hp : ∀ n k, (∃ x, position (n + 1) k = some x) ↔ k ≤ n := fun n k => by
    rw [← Option.isSome_iff_exists, position_isSome_iff, Nat.lt_succ_iff]
  have hr : (∃ p, presenceOf (argByte args 16) = some p) ↔ argNat args 16 ≤ 2 := by
    rw [← Option.isSome_iff_exists, presenceOf_isSome_iff]
    rfl
  rw [← hp 7, ← hp 15, ← hp 15, ← hp 63, ← hp 63, ← hr]
  unfold entryOfArgs
  split
  · rename_i hb hkv hkc hcv hcc hpr
    exact ⟨fun _ => ⟨⟨_, hb⟩, ⟨_, hkv⟩, ⟨_, hkc⟩, ⟨_, hcv⟩, ⟨_, hcc⟩, ⟨_, hpr⟩⟩, fun _ => rfl⟩
  · rename_i hno
    refine ⟨fun h => (by cases h), ?_⟩
    rintro ⟨⟨_, hb⟩, ⟨_, hkv⟩, ⟨_, hkc⟩, ⟨_, hcv⟩, ⟨_, hcc⟩, ⟨_, hpr⟩⟩
    exact (hno _ _ _ _ _ _ hb hkv hkc hcv hcc hpr).elim

theorem entryOfArgs_lengths {args : List Byte} {a : Fin 32} {e : Entry} (h : entryOfArgs args a = some e) :
    e.lengthMin = argNat args 10 ∧ e.lengthMax = argNat args 11 := by
  unfold entryOfArgs at h
  split at h <;> cases h
  exact ⟨rfl, rfl⟩

/-! ### The checks of R15 -/

theorem answerEntryWrite_badIndex {args : List Byte} (h : 63 < argNat args 0 ∨ 31 < argNat args 17) (s : State) :
    answerEntryWrite args s = refusal .badIndex s := by
  unfold answerEntryWrite
  split
  · rfl
  · rename_i i hi
    have h0 := (position_isSome_iff 64 (argNat args 0)).1 (by rw [hi]; rfl)
    rw [position_eq_none (n := 32) (by omega)]

theorem answerEntryWrite_of_none {args : List Byte} {i : Fin 64} {a : Fin 32} (hi : argNat args 0 = i.val)
    (ha : argNat args 17 = a.val) (he : entryOfArgs args a = none) (s : State) :
    answerEntryWrite args s = refusal .badValue s := by
  unfold answerEntryWrite
  simp only [position_eq_some hi, position_eq_some ha, he]

theorem answerEntryWrite_of_some {args : List Byte} {i : Fin 64} {a : Fin 32} {e : Entry}
    (hi : argNat args 0 = i.val) (ha : argNat args 17 = a.val) (he : entryOfArgs args a = some e) (s : State) :
    answerEntryWrite args s =
      if e.lengthMax < e.lengthMin ∨ 48 < e.lengthMax then refusal .badValue s
      else if s.entries[i].state = .live ∨ s.entries[i].state = .retiring then refusal .entryBusy s
      else if s.actions[a].defined = false then refusal .undefinedAction s
      else ⟨writeEntry i e s, .ok, [s.entries[i].state.code]⟩ := by
  unfold answerEntryWrite
  simp only [position_eq_some hi, position_eq_some ha, he]

/-- A field or a length range outside its values is refused (R15, third check). -/
theorem answerEntryWrite_badValue {args : List Byte} {i : Fin 64} {a : Fin 32} (hi : argNat args 0 = i.val)
    (ha : argNat args 17 = a.val)
    (h : entryOfArgs args a = none ∨ argNat args 11 < argNat args 10 ∨ 48 < argNat args 11) (s : State) :
    answerEntryWrite args s = refusal .badValue s := by
  cases he : entryOfArgs args a with
  | none => exact answerEntryWrite_of_none hi ha he s
  | some e =>
    obtain ⟨hmin, hmax⟩ := entryOfArgs_lengths he
    rw [answerEntryWrite_of_some hi ha he, hmin, hmax, if_pos (h.resolve_left (by rw [he]; exact nofun))]

/-! ### The write -/

/-- ENTRY_WRITE replaces the entry at its position and moves references, and nothing else (R16). -/
theorem writeEntry_reaches (i : Fin 64) (e : Entry) (s : State) :
    writeEntry i e s = { s with
      entries := s.entries.set i.val e i.isLt, actions := (writeEntry i e s).actions } := by
  unfold writeEntry
  dsimp only
  repeat' split
  all_goals rfl

/-- ENTRY_WRITE moves one reference, from the record the entry named to the one it names now (R16, R33). -/
theorem writeEntry_refMoved (i : Fin 64) (e : Entry) (s : State) :
    refMoved (if s.entries[i].state = .empty then none else some s.entries[i].action) (some e.action) s
      (writeEntry i e s) := by
  intro a
  unfold writeEntry
  dsimp only
  split
  · rw [addRef_at]
    simp
  · split
    · rename_i hsame
      simp [-Fin.getElem_fin, hsame]
    · rename_i hne
      rw [addRef_at, dropRef_at]
      by_cases hold : s.entries[i].action = a
      · subst hold
        simp [-Fin.getElem_fin, Ne.symm hne]
      · simp [-Fin.getElem_fin, hold]

/-- An EMPTY or PENDING entry may be written (R15). -/
theorem not_busy {st : EntryState} (h : st = .empty ∨ st = .pending) : ¬(st = .live ∨ st = .retiring) := by
  rcases h with rfl | rfl <;> decide

/-- An accepted ENTRY_WRITE with all its arguments is answered as the match table answers. -/
theorem exec_entryWrite {tag : Byte} {args results : List Byte} {s u : State} {st : Status} (hs : Accepts 6 tag s)
    (hl : 19 ≤ args.length) (ha : answerEntryWrite args s = ⟨u, st, results⟩) :
    exec (.entryWrite .addressed tag args) s = .next (settle (answered 6 tag st results u)) :=
  exec_answered (k := .entryWrite) hs (by decide) (Nat.add_le_add_right hl 2) ha

/-- Settles O15: the refusals in the order of R15, and the write of the entry that the arguments carry. -/
theorem entryWriteIsRefusedInOrderOrMakesAPendingEntry :
    Obligations.EntryWriteIsRefusedInOrderOrMakesAPendingEntry := by
  refine ⟨fun tag args s hs hl => ⟨fun h => ?_, fun i a hi ha => ⟨fun h => ?_, ?_⟩⟩, ?_⟩
  · exact exec_entryWrite hs hl (answerEntryWrite_badIndex h s)
  · refine exec_entryWrite hs hl (answerEntryWrite_badValue hi ha ?_ s)
    rw [← Option.not_isSome_iff_eq_none, entryOfArgs_isSome_iff]
    omega
  · intro h1 h2 h3 h4 h5 h16 hmin hmax
    obtain ⟨e, he⟩ := Option.isSome_iff_exists.1 ((entryOfArgs_isSome_iff args a).2 ⟨h1, h2, h3, h4, h5, h16⟩)
    obtain ⟨he1, he2⟩ := entryOfArgs_lengths he
    have hw := answerEntryWrite_of_some hi ha he s
    rw [if_neg (by omega)] at hw
    refine ⟨fun hb => ?_, fun hb hd => ?_⟩
    · exact exec_entryWrite hs hl (hw.trans (if_pos hb))
    · exact exec_entryWrite hs hl (hw.trans ((if_neg (not_busy hb)).trans (if_pos hd)))
  · intro tag args s i e hs hl hi hst hb hkv hkc hcv hcc hdv hdc hsv hsc hmin hmax hle h48 h0v h0c h1v h1c hp ha
      hf hh hd hfree
    have hc : EntryCarried args e := ⟨hst, hb.symm, hkv.symm, hkc.symm, hcv.symm, hcc.symm, hdv.symm, hdc.symm,
      hsv.symm, hsc.symm, hmin.symm, hmax.symm, h0v.symm, h0c.symm, h1v.symm, h1c.symm, hp.symm,
      by rw [Bool.eq_iff_iff, bne_iff_ne, hf], hh⟩
    have hw := answerEntryWrite_of_some hi ha.symm hc.entryOfArgs s
    rw [if_neg (by omega), if_neg (not_busy hfree), if_neg (by rw [hd]; decide)] at hw
    exact ⟨_, exec_entryWrite hs hl hw, writeEntry_reaches i e s, writeEntry_refMoved i e s⟩

end Sys2Proof.Machine
end

section
/-! PROOF. O16, O17 and O18: activation, retirement and discard. The changes at every position are those of
Laws/Entries.lean; here they are said in the terms of the requests' arguments. -/

namespace Sys2Proof.Machine

/-! ### Retirement of one entry -/

/-- An entry that is rewritten and not emptied drops no reference. -/
theorem EntriesLeft.setEntry (i : Fin 64) {e : Entry} (s : State) (he : e.state ≠ .empty) :
    EntriesLeft s (s.setEntry i e) := by
  refine ⟨fun a => ?_, rfl⟩
  have hnone : emptied a s (s.setEntry i e) = 0 := by
    unfold emptied
    rw [List.countP_eq_zero]
    intro j _
    rw [State.setEntry_at]
    split
    · simp [he]
    · cases s.entries[j].state <;> simp
  rw [hnone]
  rfl

/-- Retirement changes the match table and drops the reference of an emptied entry alone (R18, R33). -/
theorem retireEntry_left (i : Fin 64) (s : State) : EntriesLeft s (retireEntry i s) := by
  unfold retireEntry
  split
  · rename_i h
    split
    · exact .setEntry i s (by simp)
    · exact emptyEntry_left i s (by rw [h]; decide)
  · rename_i h
    exact emptyEntry_left i s (by rw [h]; decide)
  · exact .refl s
  · exact .refl s

theorem retireEntry_at (i j : Fin 64) (s : State) :
    (retireEntry i s).entries[j] = if j = i then retiredEntry i s else s.entries[j] := by
  rw [(retireEntry_changes i s).entries]
  simp only [eq_comm]

/-- ENTRY_RETIRE of a position (R19). -/
theorem answerEntryRetire_at {b : Byte} {i : Fin 64} (h : b.toNat = i.val) (more : List Byte) (s : State) :
    answerEntryRetire (b :: more) s =
      ⟨retireEntry i s, .ok, [s.entries[i].state.code, (retiredEntry i s).state.code]⟩ := by
  have hi : (retireEntry i s).entries[i] = retiredEntry i s := by rw [retireEntry_at, if_pos rfl]
  unfold answerEntryRetire
  simp only [argNat_zero_cons, position_eq_some h, hi]

theorem answerEntryRetire_past {b : Byte} (h : 63 < b.toNat) (more : List Byte) (s : State) :
    answerEntryRetire (b :: more) s = refusal .badIndex s := by
  simp only [answerEntryRetire, argNat_zero_cons, position_eq_none (n := 64) h]

/-- Settles O17: the retirement of the entry at the position, or BAD_INDEX. -/
theorem entryRetireRetiresOneEntry : Obligations.EntryRetireRetiresOneEntry := by
  intro tag pos more s hs
  refine ⟨fun i hi => ⟨retireEntry i s, retireEntry_left i s, fun j => retireEntry_at i j s, ?_⟩, fun h => ?_⟩
  · exact exec_answered (k := .entryRetire) hs (by decide) (Nat.le_add_left _ _) (answerEntryRetire_at hi more s)
  · exact exec_answered (k := .entryRetire) hs (by decide) (Nat.le_add_left _ _) (answerEntryRetire_past h more s)

/-! ### The entries of a batch -/

theorem countEntries_eq {b : Nat} {c : Fin 8} (h : b = c.val) (st : EntryState) (s : State) :
    countEntries st c s =
      (List.finRange 64).countP fun i => s.entries[i].state = st ∧ s.entries[i].batch.val = b := by
  unfold countEntries
  refine List.countP_congr fun i _ => ?_
  simp [-Fin.getElem_fin, h, Fin.ext_iff]

/-- Retirement of an entry depends on the entry and on the reception alone (R18). -/
theorem retiredEntry_congr {i : Fin 64} {s u : State} (ht : u.tailRx = s.tailRx)
    (he : u.entries[i] = s.entries[i]) : retiredEntry i u = retiredEntry i s := by
  unfold retiredEntry
  simp only [he, held_congr ht]

/-- BATCH_RETIRE over the whole table (R20). -/
theorem retireIfIn_everywhere {b : Nat} {c : Fin 8} (h : b = c.val) (s : State) :
    EntriesLeft s (atEveryPosition (retireIfIn c) s) ∧
      ∀ i : Fin 64, (atEveryPosition (retireIfIn c) s).entries[i] =
        if s.entries[i].batch.val = b then retiredEntry i s else s.entries[i] := by
  subst h
  simp only [← Fin.ext_iff]
  refine atEveryPosition_changes (retireIfIn c)
    (fun i s => if s.entries[i].batch = c then retiredEntry i s else s.entries[i]) (retireIfIn_changes c)
    (fun i s u ht he => ?_) s
  simp only [he, retiredEntry_congr ht he]

/-- BATCH_DISCARD over the whole table (R21). -/
theorem discardIfIn_everywhere {b : Nat} {c : Fin 8} (h : b = c.val) (s : State) :
    EntriesLeft s (atEveryPosition (discardIfIn c) s) ∧
      ∀ i : Fin 64, (atEveryPosition (discardIfIn c) s).entries[i] =
        if s.entries[i].state = .pending ∧ s.entries[i].batch.val = b then Entry.cleared else s.entries[i] := by
  subst h
  simp only [← Fin.ext_iff]
  refine atEveryPosition_changes (discardIfIn c)
    (fun i s => if s.entries[i].state = .pending ∧ s.entries[i].batch = c then Entry.cleared else s.entries[i])
    (discardIfIn_changes c) (fun i s u _ he => ?_) s
  simp only [he]

/-- BATCH_ACTIVATE over the whole table: the PENDING entries of batch `b` and the LIVE ones of batch `c` (R22,
R23). -/
theorem activateAt_everywhere {b c : Nat} {b' : Fin 8} {c' : Option (Fin 8)} (hb : b = b'.val)
    (hc : ∀ x : Fin 8, c' = some x ↔ x.val = c) (s : State) :
    EntriesLeft s (atEveryPosition (activateAt b' c') s) ∧
      ∀ i : Fin 64, (atEveryPosition (activateAt b' c') s).entries[i] =
        if s.entries[i].state = .pending ∧ s.entries[i].batch.val = b then
          { s.entries[i] with state := .live, hits := 0 }
        else if s.entries[i].state = .live ∧ s.entries[i].batch.val = c then retiredEntry i s
        else s.entries[i] := by
  subst hb
  simp only [← hc, ← Fin.ext_iff]
  refine atEveryPosition_changes (activateAt b' c')
    (fun i s => if s.entries[i].state = .pending ∧ s.entries[i].batch = b' then
        { s.entries[i] with state := .live, hits := 0 }
      else if s.entries[i].state = .live ∧ c' = some s.entries[i].batch then retiredEntry i s
      else s.entries[i]) (activateAt_changes b' c') (fun i s u ht he => ?_) s
  simp only [he, retiredEntry_congr ht he]

/-! ### BATCH_RETIRE and BATCH_DISCARD -/

theorem answerBatchRetire_of {b : Byte} {c : Fin 8} (h : b.toNat = c.val) (more : List Byte) (s : State) :
    answerBatchRetire (b :: more) s = ⟨atEveryPosition (retireIfIn c) s, .ok,
      [byteOf (countEntries .live c s), byteOf (countEntries .pending c s)]⟩ := by
  simp only [answerBatchRetire, argNat_zero_cons, position_eq_some h]

theorem answerBatchRetire_past {b : Byte} (h : 8 ≤ b.toNat) (more : List Byte) (s : State) :
    answerBatchRetire (b :: more) s = refusal .badIndex s := by
  simp only [answerBatchRetire, argNat_zero_cons, position_eq_none h]

theorem answerBatchDiscard_of {b : Byte} {c : Fin 8} (h : b.toNat = c.val) (more : List Byte) (s : State) :
    answerBatchDiscard (b :: more) s =
      ⟨atEveryPosition (discardIfIn c) s, .ok, [byteOf (countEntries .pending c s)]⟩ := by
  simp only [answerBatchDiscard, argNat_zero_cons, position_eq_some h]

theorem answerBatchDiscard_past {b : Byte} (h : 8 ≤ b.toNat) (more : List Byte) (s : State) :
    answerBatchDiscard (b :: more) s = refusal .badIndex s := by
  simp only [answerBatchDiscard, argNat_zero_cons, position_eq_none h]

/-- Settles O18: both requests over the whole table, in both forms, or BAD_INDEX. -/
theorem batchRetireAndDiscardEmptyABatch : Obligations.BatchRetireAndDiscardEmptyABatch := by
  intro tag b more s
  refine ⟨fun h => ⟨?_, ?_⟩, fun h => ⟨fun hs => ?_, fun hs => ?_, fun hs => ⟨?_, ?_⟩⟩⟩
  · have hb : b.toNat = (⟨b.toNat, h⟩ : Fin 8).val := rfl
    obtain ⟨hleft, hat⟩ := retireIfIn_everywhere hb s
    have ha := answerBatchRetire_of hb more s
    refine ⟨_, hleft, hat, fun hs => ?_, fun hs => ?_⟩
    · rw [← countEntries_eq hb, ← countEntries_eq hb]
      exact exec_answered (k := .batchRetire) hs (by decide) (Nat.le_add_left _ _) ha
    · exact exec_heard_ok (k := .batchRetire) hs rfl (by decide) (Nat.le_add_left _ _) ha
  · have hb : b.toNat = (⟨b.toNat, h⟩ : Fin 8).val := rfl
    obtain ⟨hleft, hat⟩ := discardIfIn_everywhere hb s
    have ha := answerBatchDiscard_of hb more s
    refine ⟨_, hleft, hat, fun hs => ?_, fun hs => ?_⟩
    · rw [← countEntries_eq hb]
      exact exec_answered (k := .batchDiscard) hs (by decide) (Nat.le_add_left _ _) ha
    · exact exec_heard_ok (k := .batchDiscard) hs rfl (by decide) (Nat.le_add_left _ _) ha
  · exact exec_answered (k := .batchRetire) hs (by decide) (Nat.le_add_left _ _) (answerBatchRetire_past h more s)
  · exact exec_answered (k := .batchDiscard) hs (by decide) (Nat.le_add_left _ _)
      (answerBatchDiscard_past h more s)
  · exact exec_heard_refused (k := .batchRetire) hs rfl (by decide) (Nat.le_add_left _ _)
      (answerBatchRetire_past h more s) (by decide)
  · exact exec_heard_refused (k := .batchDiscard) hs rfl (by decide) (Nat.le_add_left _ _)
      (answerBatchDiscard_past h more s) (by decide)

/-! ### BATCH_ACTIVATE -/

/-- The batch to retire: one of the eight, or none, which the code 0xFF stands for (R211). -/
theorem optPosition_retired {c : Byte} (h : c.toNat < 8 ∨ c = 0xFF) :
    ∃ c' : Option (Fin 8), optPosition (c != 0xFF) 8 c.toNat = some c' ∧
      ∀ x : Fin 8, c' = some x ↔ x.val = c.toNat := by
  unfold optPosition
  by_cases hc : c = 0xFF
  · subst hc
    exact ⟨none, rfl, by decide⟩
  · have hlt := h.resolve_right hc
    refine ⟨some ⟨c.toNat, hlt⟩, ?_, fun x => ?_⟩
    · rw [if_pos (bne_iff_ne.2 hc), position_eq_some (i := ⟨c.toNat, hlt⟩) rfl]
      rfl
    · rw [Option.some.injEq, Fin.ext_iff, eq_comm]

/-- The number of entries to retire, as the reply carries it (R22). -/
def retiredCount (c : Option (Fin 8)) (s : State) : Nat :=
  match c with
  | some c => countEntries .live c s
  | none => 0

theorem retiredCount_eq {c : Nat} {c' : Option (Fin 8)} (hc : ∀ x : Fin 8, c' = some x ↔ x.val = c) (s : State) :
    retiredCount c' s =
      (List.finRange 64).countP fun i => s.entries[i].state = .live ∧ s.entries[i].batch.val = c := by
  cases c' with
  | some x => exact countEntries_eq ((hc x).1 rfl).symm .live s
  | none =>
    refine (List.countP_eq_zero.2 fun i _ => ?_).symm
    have hne : s.entries[i].batch.val ≠ c := fun h => nomatch (hc _).2 h
    simp [-Fin.getElem_fin, hne]

theorem answerBatchActivate_of {b c : Byte} {b' : Fin 8} {c' : Option (Fin 8)} (hb : b.toNat = b'.val)
    (hc : optPosition (c != 0xFF) 8 c.toNat = some c') (more : List Byte) (s : State) :
    answerBatchActivate (b :: c :: more) s = ⟨atEveryPosition (activateAt b' c') s, .ok,
      [byteOf (countEntries .pending b' s), byteOf (retiredCount c' s)]⟩ := by
  simp only [answerBatchActivate, argNat_zero_cons, argNat_one_cons, argByte_one_cons, position_eq_some hb, hc]
  rfl

theorem answerBatchActivate_past {b c : Byte} (h : 8 ≤ b.toNat ∨ (8 ≤ c.toNat ∧ c ≠ 0xFF)) (more : List Byte)
    (s : State) : answerBatchActivate (b :: c :: more) s = refusal .badIndex s := by
  unfold answerBatchActivate
  rcases h with hb | ⟨hc, hne⟩
  · rw [argNat_zero_cons, position_eq_none hb]
  · have ho : optPosition (c != 0xFF) 8 c.toNat = none := by
      unfold optPosition
      rw [if_pos (bne_iff_ne.2 hne), position_eq_none hc]
      rfl
    rw [argByte_one_cons, argNat_one_cons, ho]
    split
    · rename_i h
      cases h
    · rfl

/-- Settles O16: the switch over the whole table, in both forms, or BAD_INDEX. -/
theorem batchActivateSwitchesTheTable : Obligations.BatchActivateSwitchesTheTable := by
  intro tag b c more s
  refine ⟨fun hb hc => ?_, fun h => ⟨fun hs => ?_, fun hs => ?_⟩⟩
  · have hb' : b.toNat = (⟨b.toNat, hb⟩ : Fin 8).val := rfl
    obtain ⟨c', ho, hc'⟩ := optPosition_retired hc
    obtain ⟨hleft, hat⟩ := activateAt_everywhere hb' hc' s
    have ha := answerBatchActivate_of hb' ho more s
    refine ⟨_, hleft, hat, fun hs => ?_, fun hs => ?_⟩
    · rw [← countEntries_eq hb', ← retiredCount_eq hc']
      exact exec_answered (k := .batchActivate) hs (by decide) (Nat.le_add_left _ _) ha
    · exact exec_heard_ok (k := .batchActivate) hs rfl (by decide) (Nat.le_add_left _ _) ha
  · exact exec_answered (k := .batchActivate) hs (by decide) (Nat.le_add_left _ _)
      (answerBatchActivate_past h more s)
  · exact exec_heard_refused (k := .batchActivate) hs rfl (by decide) (Nat.le_add_left _ _)
      (answerBatchActivate_past h more s) (by decide)

end Sys2Proof.Machine
end

section
/-! PROOF. O29, O30 and O33: the events that a symbol brings to the cell in reception on Tail. -/

namespace Sys2Proof.Machine

theorem next_settle_congr {s u : State} (h : s = u) :
    (Host.Outcome.next (settle s) : Result) = .next (settle u) := by rw [h]

/-! ### Symbols within a cell on Tail -/

section
variable {s : State} (hrun : s.resetHeld = false) (hup : s.tailPort.link = .up) (hin : s.tailPort.position = .inCell)
include hrun hup hin

/-- A symbol within a cell on Tail is handled by the table of R188, with the decisions at its close. -/
theorem symbolCommand_tail_inCell (y : Symbol) :
    symbolCommand .tail y s = .next (settle (symbolInCell .tail y s)) := by
  have hr : receive .tail y s = symbolInCell .tail y s := by
    simp only [receive, State.port, hup, hin]
  unfold symbolCommand unlessHeld
  rw [if_neg (by simp [hrun])]
  exact next_settle_congr hr

/-- A data byte within a cell on Tail, under whichever of its three commands (R188; log 1). -/
theorem symbolCommand_tail_data (hroom : s.tailPort.cellBytes < 56) (b : Byte) :
    symbolCommand .tail (.data b) s = .next (settle (tailByte b
      { s with tailPort := { s.tailPort with cellBytes := s.tailPort.cellBytes + 1 } })) := by
  have hb : symbolInCell .tail (.data b) s = tailByte b
      { s with tailPort := { s.tailPort with cellBytes := s.tailPort.cellBytes + 1 } } :=
    if_neg (Nat.not_le_of_lt hroom)
  rw [symbolCommand_tail_inCell hrun hup hin, hb]

/-- A code violation within a cell on Tail stands as 0x00 and marks the cell bad (R190). -/
theorem exec_codeViolation_tail : exec (.codeViolation .tail) s = .next (settle (tailByte 0
    { s with tailPort := { s.tailPort with cellBytes := s.tailPort.cellBytes + 1, cellBad := true } })) :=
  symbolCommand_tail_inCell hrun hup hin .violation

/-- The end delimiter of a cell on Tail is its end-of-cell (R188). -/
theorem exec_endOfCell_inCell : exec .endOfCell s = .next (settle (tailEnd
    (payloadPasses s.tailPort.cellBytes s.tailPort.cellBad)
    { s with tailPort := { s.tailPort with violations := 0, position := .between } })) :=
  symbolCommand_tail_inCell hrun hup hin .endDelimiter

end

/-! ### Bytes on Tail -/

theorem headerCheckPasses_iff {five : List Byte} {b : Byte} (h5 : five.length = 5) :
    headerCheckPasses (five ++ [b]) = true ↔ b = headerCheck five := by
  have hb : argByte (five ++ [b]) 5 = b := h5 ▸ argByte_at_length five [] b
  rw [headerCheckPasses, beq_iff_eq, hb, List.take_left' h5]

/-- The sixth byte brings header-complete (R99). -/
theorem tailByte_sixth {s : State} {five : List Byte} (hx : s.tailRx = .receiving ⟨five, none⟩)
    (h5 : five.length = 5) (b : Byte) : tailByte b s = tailHeaderComplete ⟨five ++ [b], none⟩
      { s with tailRx := .receiving ⟨five ++ [b], none⟩ } := by
  simp [tailByte, hx, h5]

/-- The last byte the key needs brings key-complete (R101). -/
theorem tailByte_last {s : State} {got : List Byte} {l : Latched} (hx : s.tailRx = .receiving ⟨got, some l⟩)
    (hlen : got.length + 1 = 6 + l.keyBytes) (hroom : got.length < 56) (b : Byte) :
    tailByte b s = keyComplete ⟨got ++ [b], some l⟩ l
      { s with tailRx := .receiving ⟨got ++ [b], some l⟩ } := by
  simp [tailByte, hx, hlen, hroom]

/-- The verdict formed at key-complete, with the reception record it enters (R101). -/
theorem reachVerdict_unverdicted {r : Reception} {l : Latched} (hl : l.verdict = none) (x : TailRx) (s : State) :
    reachVerdict r l { s with tailRx := x } = ({ (formVerdict l r.buf s).1 with
      tailRx := .receiving { r with hdr := some { l with verdict := some (formVerdict l r.buf s).2 } } },
      (formVerdict l r.buf s).2) := by
  unfold reachVerdict
  rw [hl]
  dsimp only
  rw [formVerdict_tailRx]

/-- Key-complete leaves what classification leaves, with the verdict in the reception record (R14, R101). -/
theorem keyComplete_classified {r : Reception} {l : Latched} (hl : l.verdict = none) (x : TailRx) (s : State) :
    ∃ (w : State) (v : Verdict), Classified (keyOf l r.buf) s w v ∧
      keyComplete r l { s with tailRx := x } =
        { w with tailRx := .receiving { r with hdr := some { l with verdict := some v } } } :=
  ⟨_, _, formVerdict_classified l r.buf s, congrArg Prod.fst (reachVerdict_unverdicted hl x s)⟩

/-! ### O29: header-complete -/

/-- A bad header frees the buffer, and the cell passes in DISCARDING (R99). -/
theorem tailByte_badHeader {s : State} {five : List Byte} {b : Byte} (hx : s.tailRx = .receiving ⟨five, none⟩)
    (h5 : five.length = 5)
    (h : s.tailPort.cellBad = true ∨ b ≠ headerCheck five ∨ 48 < (headerOf (five ++ [b])).length) :
    tailByte b s = { s with
      freeBuffers := s.freeBuffers + 1
      tailRx := .discarding
      stats := { s.stats with headerBad := s.stats.headerBad + 1 } } := by
  rw [tailByte_sixth hx h5]
  rw [ne_eq, ← headerCheckPasses_iff h5] at h
  exact if_pos (by simpa [or_assoc] using h)

/-- A good header is latched, and key-complete follows at once where the key needs no payload byte (R99, R101). -/
theorem tailByte_goodHeader {s : State} {five : List Byte} {b : Byte} {l : Latched}
    (hx : s.tailRx = .receiving ⟨five, none⟩) (h5 : five.length = 5) (hclean : s.tailPort.cellBad = false)
    (hcheck : b = headerCheck five) (hlen : (headerOf (five ++ [b])).length ≤ 48)
    (hl : l = ⟨headerOf (five ++ [b]), s.settings.probe0Offset, s.settings.probe1Offset,
      keyPoint (headerOf (five ++ [b])).length s.settings.probe0Offset s.settings.probe1Offset, none⟩) :
    tailByte b s = if l.keyBytes = 0 then keyComplete ⟨five ++ [b], some l⟩ l
        { s with tailRx := .receiving ⟨five ++ [b], some l⟩ }
      else { s with tailRx := .receiving ⟨five ++ [b], some l⟩ } := by
  subst hl
  rw [← headerCheckPasses_iff h5] at hcheck
  rw [tailByte_sixth hx h5]
  exact if_neg (by simp [hclean, hcheck, hlen])

theorem keyPoint_eq_zero_iff (n p0 p1 : Nat) : keyPoint n p0 p1 = 0 ↔ n = 0 := by
  unfold keyPoint
  split <;> omega

/-- The key of a cell without payload has no probe (R3, R4). -/
theorem keyOf_of_empty {l : Latched} (h : l.header.length = 0) (buf : List Byte) :
    keyOf l buf = ⟨l.header.kind, l.header.channel, l.header.dest, l.header.src, 0, 0, 0, false, false⟩ := by
  simp [keyOf, probeAt, h]

/-- Settles O29: the sixth byte brings header-complete, which discards a bad header and latches a good one. -/
theorem headerCompleteLatchesOrDiscards : Obligations.HeaderCompleteLatchesOrDiscards := by
  intro b s s1 five buf h hrun hup hin hroom hx h5 hbuf hh hs1
  have hx1 : s1.tailRx = .receiving ⟨five, none⟩ := by rw [hs1]; exact hx
  have hbyte : exec (.headerComplete b) s = .next (settle (tailByte b s1)) :=
    hs1 ▸ symbolCommand_tail_data hrun hup hin hroom b
  have hclean1 : s1.tailPort.cellBad = s.tailPort.cellBad := by rw [hs1]
  subst hbuf hh
  refine ⟨rfl, ?_, fun hbad => ?_, fun hclean hcheck hlen p0 p1 hp0 hp1 => ?_⟩
  · refine (exec_codeViolation_tail hrun hup hin).trans (next_settle_congr ?_)
    subst hs1
    exact tailByte_badHeader hx h5 (.inl rfl)
  · refine hbyte.trans (next_settle_congr ?_)
    subst hs1
    exact tailByte_badHeader hx h5 hbad
  · obtain ⟨l, hl⟩ : ∃ l : Latched, l = ⟨headerOf (five ++ [b]), p0, p1,
      keyPoint (headerOf (five ++ [b])).length p0 p1, none⟩ := ⟨_, rfl⟩
    have hkey : l.keyBytes = 0 ↔ (headerOf (five ++ [b])).length = 0 := by rw [hl, keyPoint_eq_zero_iff]
    have hgood := tailByte_goodHeader (l := l) hx1 h5 (hclean1.trans hclean) hcheck hlen
      (by rw [hl, hp0, hp1, hs1])
    refine ⟨fun hpos => ?_, fun hzero => ?_⟩
    · rw [if_neg (fun h0 => by rw [hkey] at h0; omega), hl] at hgood
      exact hbyte.trans (next_settle_congr hgood)
    · rw [if_pos (hkey.2 hzero)] at hgood
      obtain ⟨w, v, hc, hk⟩ := keyComplete_classified (r := ⟨five ++ [b], some l⟩) (l := l) (by rw [hl])
        (.receiving ⟨five ++ [b], some l⟩) s1
      rw [keyOf_of_empty (by rw [hl]; exact hzero)] at hc
      have hl0 : l = ⟨headerOf (five ++ [b]), p0, p1, 0, none⟩ := by
        rw [hl, (keyPoint_eq_zero_iff _ _ _).2 hzero]
      subst hl0
      exact ⟨w, v, hc, hbyte.trans (next_settle_congr (hgood.trans hk))⟩

/-! ### O30: key-complete -/

/-- The byte at the key-complete point classifies the cell (R101). -/
theorem tailByte_classified {s : State} {got : List Byte} {l : Latched} (hx : s.tailRx = .receiving ⟨got, some l⟩)
    (hl : l.verdict = none) (hlen : got.length + 1 = 6 + l.keyBytes) (hroom : got.length < 56) (b : Byte) :
    ∃ (w : State) (v : Verdict), Classified (keyOf l (got ++ [b])) s w v ∧
      tailByte b s = { w with tailRx := .receiving ⟨got ++ [b], some { l with verdict := some v }⟩ } := by
  rw [tailByte_last hx hlen hroom]
  exact keyComplete_classified (r := ⟨got ++ [b], some l⟩) hl _ s

/-- Settles O30: the last byte the key needs brings key-complete, and a code violation there stands as 0x00. -/
theorem keyCompleteFormsTheVerdict : Obligations.KeyCompleteFormsTheVerdict := by
  intro b s s1 got buf l hrun hup hin hroom hx hl hlen hgot hbuf hs1
  subst hbuf hs1
  refine ⟨rfl, ?_, ?_⟩
  · obtain ⟨w, v, hc, hw⟩ := tailByte_classified (s := { s with
      tailPort := { s.tailPort with cellBytes := s.tailPort.cellBytes + 1, cellBad := true } }) hx hl hlen hgot 0
    exact ⟨w, v, hc, (exec_codeViolation_tail hrun hup hin).trans (next_settle_congr hw)⟩
  · obtain ⟨w, v, hc, hw⟩ := tailByte_classified (s := { s with
      tailPort := { s.tailPort with cellBytes := s.tailPort.cellBytes + 1 } }) hx hl hlen hgot b
    exact ⟨w, v, hc, (symbolCommand_tail_data hrun hup hin hroom b).trans (next_settle_congr hw)⟩

/-! ### O33: the end of a failed cell -/

/-- A cell whose payload check fails ends as every failed cell does (R100, R102, R106). -/
theorem tailEnd_eq_tailFail {ok : Nat → List Byte → Bool} {s : State}
    (h : ∀ buf l, s.tailRx = .receiving ⟨buf, some l⟩ → ok l.header.length buf = false) :
    tailEnd ok s = tailFail s := by
  unfold tailFail tailEnd
  split
  · rename_i r hx
    obtain ⟨buf, hdr⟩ := r
    cases hdr with
    | none => rfl
    | some l =>
      dsimp only
      rw [h buf l hx]
  · rfl
  · rfl

/-- Settles O33: each of the cells that fail at their end delimiter fails as R189 says of every failed cell. -/
theorem endOfCellFreesAFailedCell : Obligations.EndOfCellFreesAFailedCell := by
  intro s s1 buf hrun hup hin hs1
  have hend := exec_endOfCell_inCell hrun hup hin
  rw [← hs1] at hend
  have hrx : s1.tailRx = s.tailRx := by rw [hs1]
  have hfail : (∀ buf l, s1.tailRx = .receiving ⟨buf, some l⟩ →
      payloadPasses s.tailPort.cellBytes s.tailPort.cellBad l.header.length buf = false) →
      exec .endOfCell s = .next (settle (tailFail s1)) := fun h => by rw [hend, tailEnd_eq_tailFail h]
  have hcell := tailFail_failed s1
  unfold CellFailed at hcell
  rw [hrx] at hfail
  refine ⟨fun hx => ?_, fun hx => ?_, fun l hx hbad => ?_⟩
  · simp only [hrx, hx] at hcell
    obtain ⟨hcut, _⟩ := hcell
    subst hs1
    exact (hfail (by simp [hx])).trans (next_settle_congr (hcut trivial))
  · simp only [hrx, hx] at hcell
    exact (hfail (by simp [hx])).trans (next_settle_congr hcell)
  · have hno : payloadPasses s.tailPort.cellBytes s.tailPort.cellBad l.header.length buf = false := by
      rwa [← Bool.not_eq_true, payloadPasses_iff]
    have hlast := hfail (fun buf' l' h => by rw [hx] at h; cases h; exact hno)
    simp only [hrx, hx] at hcell
    obtain ⟨_, hcell⟩ := hcell
    obtain ⟨hverdict, hnone⟩ := hcell l rfl
    refine ⟨fun v hv => ?_, fun hv => ?_⟩
    · obtain ⟨w, hw, hu⟩ := hverdict v hv
      subst hs1
      exact ⟨w, hw, hlast.trans (next_settle_congr hu)⟩
    · obtain ⟨w, v, hc, hu⟩ := hnone hv
      subst hs1
      exact ⟨w, v, hc, hlast.trans (next_settle_congr hu)⟩

end Sys2Proof.Machine
end

section
/-! PROOF. O32: the end of a good cell, one equation per step of R103. What the occurrences leave depends on the
report unit alone, so the equations name it by the occurrences of `endOccurrences`, whatever the counters are. -/

namespace Sys2Proof.Machine

/-! ### Occurrences in states that the report unit cannot tell apart -/

/-- Two states that an occurrence cannot tell apart (R137). -/
structure SameReports (s u : State) : Prop where
  settings : u.settings = s.settings
  waiting : u.waiting = s.waiting
  sent : u.sent = s.sent
  lineTime : u.lineTime = s.lineTime
  lost : u.lostSinceSent = s.lostSinceSent
  total : u.stats.reportsLost = s.stats.reportsLost

/-- The state `u` with the report unit as it stands in `r`. -/
def withReports (r u : State) : State :=
  { u with
    waiting := r.waiting
    lostSinceSent := r.lostSinceSent
    stats := { u.stats with reportsLost := r.stats.reportsLost } }

theorem SameReports.withReports_eq {s u : State} (h : SameReports s u) : withReports s u = u := by
  unfold withReports
  rw [← h.waiting, ← h.lost, ← h.total]

/-- An occurrence leaves the report unit of `u` as it leaves that of `s` (R137). -/
theorem SameReports.occur_eq {s u : State} (h : SameReports s u) (k : ReportKind) (n : Nat) :
    occur k n u = withReports (occur k n s) u := by
  obtain ⟨hw, hl, ht⟩ := occur_lost_congr k n s u h.settings h.waiting h.sent h.lineTime h.lost h.total
  rw [occur_reaches k n u, hw, hl, ht]
  rfl

/-- An occurrence in the one state, brought into the other, leaves them alike. -/
theorem SameReports.occur {s u : State} (h : SameReports s u) (k : ReportKind) (n : Nat) :
    SameReports (occur k n s) (withReports (occur k n s) u) := by
  obtain ⟨_, _, _, he⟩ := occur_frame k n s
  refine ⟨?_, rfl, ?_, ?_, rfl, rfl⟩ <;> rw [he]
  · exact h.settings
  · exact h.sent
  · exact h.lineTime

/-! ### The outcome step -/

/-- The occurrence of the outcome step (R111). -/
def outcomeOccurrence (o : CellOutcome) (s : State) : State :=
  if o = .queueDropped then occur .poolExhausted 1 s else s

/-- The counters with the one of an outcome raised (R104). -/
def outcomeStats (o : CellOutcome) (t : Stats) : Stats :=
  { t with
    actionDiscarded := t.actionDiscarded + (if o = .actionDiscarded then 1 else 0)
    meterDropped := t.meterDropped + (if o = .meterDropped then 1 else 0)
    queueDropped := t.queueDropped + (if o = .queueDropped then 1 else 0) }

/-- The outcome step counts the cell and raises its occurrence (R104, R111). -/
theorem countOutcome_eq (o : CellOutcome) (s : State) :
    countOutcome o s = withReports (outcomeOccurrence o s) { s with stats := outcomeStats o s.stats } := by
  cases o with
  | queueDropped =>
    have h : SameReports s (s.count .queueDropped) := ⟨rfl, rfl, rfl, rfl, rfl, rfl⟩
    refine (h.occur_eq .poolExhausted 1).trans ?_
    simp [withReports, outcomeOccurrence, outcomeStats, State.count, Stats.raise]
  | _ => simp [countOutcome, withReports, outcomeOccurrence, outcomeStats, State.count, Stats.raise]

theorem outcomeOccurrence_same (o : CellOutcome) (s : State) :
    SameReports (outcomeOccurrence o s) (countOutcome o s) := by
  rw [countOutcome_eq]
  unfold outcomeOccurrence
  split
  · exact SameReports.occur (s := s) (u := { s with stats := outcomeStats o s.stats })
      ⟨rfl, rfl, rfl, rfl, rfl, rfl⟩ _ _
  · exact ⟨rfl, rfl, rfl, rfl, rfl, rfl⟩

/-! ### The capture step -/

theorem captures_iff (d : Disposition) : d.captures = true ↔ d = .captureForward ∨ d = .captureDiscard := by
  cases d <;> simp [Disposition.captures]

/-- The occurrence of the capture step of a ring of `n` records (R84, R85). -/
def captureOccurrence (v : Verdict) (n : Nat) (s : State) : State :=
  if v.act.disposition = .captureForward ∨ v.act.disposition = .captureDiscard then
    if n < 8 then occur .captureReady 0 s else occur .captureLost 0 s
  else s

/-- The capture step stores the cell or counts its loss, and raises its occurrence (R83 to R85). -/
theorem captureCell_eq {v : Verdict} {captured : Bool}
    (hcap : captured = decide (v.act.disposition = .captureForward ∨ v.act.disposition = .captureDiscard))
    (o : CellOutcome) (h : Header) (buf : List Byte) {r s : State} (hr : SameReports r s) :
    captureCell v o h buf s = withReports (captureOccurrence v s.captures.length r) { s with
      captures := s.captures ++ (if captured ∧ s.captures.length < 8 then [captureRecord v o h buf s] else [])
      nextCapture := (if captured ∧ s.captures.length < 8 then s.nextCapture + 1 else s.nextCapture)
      stats := { s.stats with
        capturesLost := s.stats.capturesLost + (if captured ∧ 8 ≤ s.captures.length then 1 else 0) } } := by
  unfold captureCell captureOccurrence
  by_cases hd : v.act.disposition = .captureForward ∨ v.act.disposition = .captureDiscard
  · have hc : captured = true := by rw [hcap, decide_eq_true hd]
    subst hc
    rw [if_pos ((captures_iff _).2 hd), if_pos hd]
    by_cases hroom : s.captures.length < 8
    · have hs : SameReports r { s with
          captures := s.captures ++ [captureRecord v o h buf s], nextCapture := s.nextCapture + 1 } :=
        ⟨hr.settings, hr.waiting, hr.sent, hr.lineTime, hr.lost, hr.total⟩
      rw [if_pos hroom, if_pos (show s.captures.length < Config.captureRecords from hroom), hs.occur_eq]
      simp [withReports, hroom, Nat.not_le.2 hroom]
    · have hs : SameReports r (s.count .capturesLost) :=
        ⟨hr.settings, hr.waiting, hr.sent, hr.lineTime, hr.lost, hr.total⟩
      rw [if_neg hroom, if_neg (show ¬s.captures.length < Config.captureRecords from hroom), hs.occur_eq]
      simp [withReports, hroom, Nat.not_lt.1 hroom, State.count, Stats.raise]
  · have hc : captured = false := by rw [hcap, decide_eq_false hd]
    subst hc
    rw [if_neg (fun h' => hd ((captures_iff _).1 h')), if_neg hd]
    refine hr.withReports_eq.symm.trans ?_
    simp [withReports]

/-! ### The close -/

/-- The close releases the held entry, and queues the cell or frees its buffer (R105). -/
theorem closeCell_eq (o : CellOutcome) (cell : Cell) (s : State) :
    closeCell o cell s = { releaseHeld s with
      urgent := s.urgent ++ (if o = .forwardedUrgent then [cell] else [])
      normal := s.normal ++ (if o = .forwardedNormal then [cell] else [])
      freeBuffers := s.freeBuffers + (if o = .forwardedUrgent ∨ o = .forwardedNormal then 0 else 1)
      tailRx := .idle } := by
  obtain ⟨_, _, h⟩ := releaseHeld_frame s
  unfold closeCell freeReception
  rw [h]
  cases o <;> simp

/-- A release said of a state is the same release said of another with the same tables (R12). -/
theorem Released.transfer {held : Option (Fin 64)} {s t u : State} (h : Released held s u)
    (he : s.entries = t.entries) (ha : s.actions = t.actions) :
    Released held t { t with entries := u.entries, actions := u.actions } := by
  have hn : ∀ a, emptied a s u = emptied a t { t with entries := u.entries, actions := u.actions } := fun a => by
    unfold emptied
    rw [he]
  refine ⟨⟨fun a => ?_, rfl⟩, fun i => ?_⟩
  · rw [← hn, ← ha]
    exact h.refs a
  · rw [← he]
    exact h.entries i

/-! ### The five steps together -/

/-- The end of a good cell in one equation: the steps of R103 in their order. -/
theorem disposeCell_eq {v : Verdict} {h : Header} {buf : List Byte} {s c : State} {o : CellOutcome}
    {captured : Bool} (ho : o = outcomeOf v s)
    (hcap : captured = decide (v.act.disposition = .captureForward ∨ v.act.disposition = .captureDiscard))
    (hc : c = countVerdict v h buf s) :
    ∃ w : State, Released s.held s w ∧ disposeCell v h buf s = withReports (endOccurrences v o c) { s with
      entries := w.entries
      actions := w.actions
      bins := c.bins
      rules := c.rules
      captures := s.captures ++ (if captured ∧ s.captures.length < 8 then [captureRecord v o h buf s] else [])
      nextCapture := (if captured ∧ s.captures.length < 8 then s.nextCapture + 1 else s.nextCapture)
      urgent := s.urgent ++ (if o = .forwardedUrgent then [rewritten v.act buf] else [])
      normal := s.normal ++ (if o = .forwardedNormal then [rewritten v.act buf] else [])
      freeBuffers := s.freeBuffers + (if o = .forwardedUrgent ∨ o = .forwardedNormal then 0 else 1)
      tailRx := .idle
      stats := { outcomeStats o s.stats with
        capturesLost := s.stats.capturesLost + (if captured ∧ 8 ≤ s.captures.length then 1 else 0) } } := by
  obtain ⟨b, r, w, l, t, hform⟩ : ∃ b r w l t, c = { s with
      bins := b, rules := r, waiting := w, lostSinceSent := l, stats := { s.stats with reportsLost := t } } :=
    ⟨_, _, _, _, _, hc.trans (countVerdict_reaches v h buf s)⟩
  have hout : decideOutcome v c = o := by rw [ho, hform]; rfl
  have hd : disposeCell v h buf s =
      closeCell o (rewritten v.act buf) (captureCell v o h buf (countOutcome o c)) := by
    rw [← hout, hc]
    rfl
  have hoccur : captureOccurrence v (countOutcome o c).captures.length (outcomeOccurrence o c) =
      endOccurrences v o c := by
    rw [countOutcome_eq]
    rfl
  have h2 := countOutcome_eq o c
  have h3 := captureCell_eq hcap o h buf (outcomeOccurrence_same o c)
  rw [hoccur] at h3
  rw [hd, closeCell_eq]
  generalize endOccurrences v o c = e at h3 ⊢
  generalize outcomeOccurrence o c = q at h2
  generalize countOutcome o c = s2 at h2 h3 ⊢
  generalize captureCell v o h buf s2 = s3 at h3 ⊢
  have hentries : s3.entries = s.entries := by rw [h3, h2, hform]; rfl
  have hactions : s3.actions = s.actions := by rw [h3, h2, hform]; rfl
  have hheld : s3.held = s.held := held_congr (by rw [h3, h2, hform]; rfl)
  have hrel := (releaseHeld_released s3).transfer hentries hactions
  obtain ⟨x0, x1, hx⟩ := releaseHeld_frame s3
  rw [hx, hheld] at hrel
  rw [hx]
  refine ⟨_, hrel, ?_⟩
  subst h3 h2 hform
  rfl

/-! ### O32 -/

/-- A cell with a verdict whose payload check passes is disposed of at its end (R103). -/
theorem tailEnd_good {ok : Nat → List Byte → Bool} {s : State} {buf : List Byte} {l : Latched} {v : Verdict}
    (hx : s.tailRx = .receiving ⟨buf, some l⟩) (hv : l.verdict = some v) (hok : ok l.header.length buf = true) :
    tailEnd ok s = disposeCell v l.header buf s := by
  simp only [tailEnd, hx, endReception, reachVerdict, hv, hok, if_true]

/-- The port plays no part in the occurrences of an end-of-cell. -/
theorem endOccurrences_tailPort (v : Verdict) (o : CellOutcome) (x : Port) (c : State) :
    endOccurrences v o { c with tailPort := x } = { endOccurrences v o c with tailPort := x } := by
  unfold endOccurrences
  simp only [occur_tailPort]
  repeat' split
  all_goals simp only [occur_tailPort]

/-- Settles O32: the end delimiter of a good cell brings the five steps of R103. -/
theorem endOfCellDisposesOfAGoodCell : Obligations.EndOfCellDisposesOfAGoodCell := by
  intro s buf l v o captured hrun hup hin hx hv hgood ho hcap c e hc he
  obtain ⟨x, hxp⟩ : ∃ x : Port, x = { s.tailPort with violations := 0, position := .between } := ⟨_, rfl⟩
  have hheld : State.held { s with tailPort := x } = v.entry := by simp [State.held, hx, hv]
  have hcount : { c with tailPort := x } = countVerdict v l.header buf { s with tailPort := x } := by
    rw [countVerdict_tailPort, hc]
    rfl
  obtain ⟨w, hrel, hu⟩ := disposeCell_eq (h := l.header) (buf := buf) (s := { s with tailPort := x }) ho hcap hcount
  rw [hheld] at hrel
  rw [endOccurrences_tailPort, ← he] at hu
  have hend := exec_endOfCell_inCell hrun hup hin
  rw [← hxp, tailEnd_good (s := { s with tailPort := x }) hx hv ((payloadPasses_iff _ _ _ _).2 hgood), hu] at hend
  subst hxp
  exact ⟨_, hend, rfl, rfl, rfl, rfl, rfl, rfl, rfl, rfl, rfl,
    ⟨{ s with entries := w.entries, actions := w.actions }, hrel.transfer rfl rfl, rfl, rfl⟩, rfl, rfl⟩

end Sys2Proof.Machine
end

section
/-! PROOF. O53: the reference counts stay exact. What is legal of one record depends on the record and on how many
entries and settings name it. Every event leaves both, drops the references of the entries it empties, moves one
reference, replaces a record without moving one, or resets both tables. -/

namespace Sys2Proof.Machine

/-! ### What names a record -/

/-- R32: an entry that is not EMPTY names its record. -/
def names (a : Fin 32) (e : Entry) : Bool := e.state != .empty && e.action == a

/-- The entries that name a record. -/
def entryNamings (a : Fin 32) (s : State) : Nat := (List.finRange 64).countP fun i => names a s.entries[i]

/-- 1 for the record that an optional position names, otherwise 0. -/
def namedBy (o : Option (Fin 32)) (a : Fin 32) : Nat := if o = some a then 1 else 0

theorem namings_eq (a : Fin 32) (s : State) :
    namings a s = entryNamings a s + namedBy s.settings.missAction a := rfl

/-- The record that an entry names, if it is not EMPTY. -/
def Entry.named (e : Entry) : Option (Fin 32) := if e.state = .empty then none else some e.action

theorem namedBy_named (a : Fin 32) (e : Entry) : namedBy e.named a = if names a e = true then 1 else 0 := by
  unfold namedBy Entry.named names
  split <;> simp_all

theorem entryNamings_eq_countP (a : Fin 32) (s : State) : entryNamings a s = s.entries.countP (names a) := by
  have hl : s.entries.toList = (List.finRange 64).map fun i => s.entries[i] := by
    rw [← List.ofFn_eq_map, ← Vector.toList_ofFn]
    exact congrArg Vector.toList Vector.ofFn_getElem.symm
  rw [← Vector.countP_toList, hl, List.countP_map]
  rfl

theorem entryNamings_pos {s : State} {i : Fin 64} (h : s.entries[i].state ≠ .empty) :
    0 < entryNamings s.entries[i].action s :=
  List.countP_pos_iff.2 ⟨i, List.mem_finRange i, by simpa [names] using h⟩

/-- A replaced entry gives up the naming it had and takes the one it has now. -/
theorem entryNamings_set (a : Fin 32) {i : Fin 64} {e : Entry} {s u : State}
    (h : u.entries = s.entries.set i.val e i.isLt) :
    entryNamings a u + namedBy s.entries[i].named a = entryNamings a s + namedBy e.named a := by
  have hpos : names a s.entries[i] = true → 0 < s.entries.countP (names a) := fun hi =>
    Vector.countP_pos_iff.2 ⟨_, Vector.getElem_mem i.isLt, hi⟩
  rw [entryNamings_eq_countP, entryNamings_eq_countP, h, Vector.countP_set, namedBy_named, namedBy_named]
  simp only [Fin.getElem_fin] at hpos ⊢
  split
  · rename_i hi
    have := hpos hi
    omega
  · omega

/-! ### Legal records -/

/-- R31, R32: what is legal of a record that `n` entries and settings name. -/
structure RecordLegal (n : Nat) (r : ActionRecord) : Prop where
  refs : r.refs = n
  undefined : r.defined = false → r = ActionRecord.undefined

/-- Both invariants of the action table: every record is legal (R31, R32). -/
def refsLegal (s : State) : Prop := ∀ a : Fin 32, RecordLegal (namings a s) s.actions[a]

/-- A named record is defined: an undefined one counts no naming (R31, R32). -/
theorem RecordLegal.defined {n : Nat} {r : ActionRecord} (h : RecordLegal n r) (hn : 0 < n) : r.defined = true := by
  by_contra hd
  have hr := h.refs
  rw [h.undefined (by simpa using hd)] at hr
  exact hn.ne hr

/-- A change of the count that gives an undefined record no reference leaves it legal. -/
theorem RecordLegal.change {n : Nat} {r : ActionRecord} (h : RecordLegal n r) (dropped added : Nat)
    (ha : r.defined = false → added = 0) :
    RecordLegal (n - dropped + added) { r with refs := r.refs - dropped + added } := by
  refine ⟨by rw [h.refs], fun hd => ?_⟩
  rw [ha hd, h.undefined hd]
  simp [ActionRecord.undefined]

theorem refsLegal_iff (s : State) : refsLegal s ↔ refsExact s ∧ undefinedIsZero s := by
  refine ⟨fun h => ⟨⟨fun a => (h a).refs, fun i hi => (h _).defined ?_, fun a ha => (h a).defined ?_⟩,
    fun a => (h a).undefined⟩, fun ⟨⟨hr, _, _⟩, hz⟩ a => ⟨hr a, hz a⟩⟩
  · rw [namings_eq]
    exact Nat.add_pos_left (entryNamings_pos hi) _
  · rw [namings_eq, namedBy, if_pos ha]
    exact Nat.succ_pos _

/-! ### Events that keep the tables -/

/-- What the reference counts are about: both tables and miss_action (R32). -/
def references (s : State) : Vector Entry 64 × Vector ActionRecord 32 × Option (Fin 32) :=
  (s.entries, s.actions, s.settings.missAction)

/-- Records stay legal while no entry or setting changes the record it names. -/
theorem refsLegal_of_names {s u : State} (hs : refsLegal s)
    (he : ∀ (a : Fin 32) (i : Fin 64), names a u.entries[i] = names a s.entries[i])
    (ha : u.actions = s.actions) (hm : u.settings.missAction = s.settings.missAction) : refsLegal u := by
  intro a
  have hn : namings a u = namings a s := by simp only [namings_eq, entryNamings, he, hm]
  rw [hn, ha]
  exact hs a

theorem refsLegal_congr {s u : State} (hs : refsLegal s) (h : references u = references s) : refsLegal u := by
  obtain ⟨he, h⟩ := Prod.mk.inj h
  obtain ⟨ha, hm⟩ := Prod.mk.inj h
  exact refsLegal_of_names hs (fun a i => by rw [he]) ha hm

theorem refsLegal_occur (k : ReportKind) (n : Nat) (s : State) (hs : refsLegal s) : refsLegal (occur k n s) := by
  obtain ⟨_, _, _, h⟩ := occur_frame k n s
  exact refsLegal_congr hs (by rw [h]; rfl)

/-- After a reset nothing names a record, and every record is undefined (R28, R43). -/
theorem refsLegal_of_reset {u : State} (h : references u = references State.reset) : refsLegal u := by
  have hr : refsLegal State.reset := by
    intro a
    have hn : namings a State.reset = 0 := by
      rw [namings_eq, entryNamings_eq_countP]
      simp [State.reset, names, namedBy, Entry.cleared, Settings.defaults]
    rw [hn]
    simp only [State.reset, Fin.getElem_fin, Vector.getElem_replicate]
    exact ⟨rfl, fun _ => rfl⟩
  exact refsLegal_congr hr h

theorem refsLegal_deviceReset (s : State) : refsLegal (deviceReset s) := by
  rw [deviceReset_eq]
  exact refsLegal_of_reset rfl

/-! ### Events that empty entries -/

/-- An entry that is not EMPTY afterwards was not EMPTY before, and names the record it named. -/
def StaysOrLeaves (before after : Entry) : Prop :=
  after.state ≠ .empty → before.state ≠ .empty ∧ after.action = before.action

theorem StaysOrLeaves.refl (e : Entry) : StaysOrLeaves e e := fun h => ⟨h, rfl⟩

theorem StaysOrLeaves.cleared (e : Entry) : StaysOrLeaves e Entry.cleared := fun h => absurd rfl h

theorem StaysOrLeaves.retired (i : Fin 64) (s : State) : StaysOrLeaves s.entries[i] (retiredEntry i s) := by
  unfold retiredEntry
  split
  · rename_i hlive
    split
    · exact fun _ => ⟨by rw [hlive]; decide, rfl⟩
    · exact .cleared _
  · exact .cleared _
  · exact .refl _
  · exact .refl _

theorem countP_eq_countP_add {α : Type} {l : List α} {p q r : α → Bool}
    (h : ∀ x, (if p x = true then 1 else 0) = (if q x = true then 1 else 0) + if r x = true then 1 else 0) :
    l.countP p = l.countP q + l.countP r := by
  induction l with
  | nil => rfl
  | cons x l ih =>
    rw [List.countP_cons, List.countP_cons, List.countP_cons, ih, h]
    omega

/-- The entries that named a record and do not any more are those that have entered EMPTY (R33). -/
theorem entryNamings_left {s u : State} (h : ∀ i : Fin 64, StaysOrLeaves s.entries[i] u.entries[i]) (a : Fin 32) :
    entryNamings a s = entryNamings a u + emptied a s u := by
  refine countP_eq_countP_add fun i => ?_
  unfold names
  by_cases hu : u.entries[i].state = .empty
  · simp [-Fin.getElem_fin, hu]
  · obtain ⟨hne, hact⟩ := h i hu
    simp [-Fin.getElem_fin, hne, hact, hu]

/-- Entries that enter EMPTY take their references with them (R33). -/
theorem refsLegal_left {s u : State} (hs : refsLegal s) (hl : EntriesLeft s u)
    (he : ∀ i : Fin 64, StaysOrLeaves s.entries[i] u.entries[i]) : refsLegal u := by
  intro a
  have hm : u.settings.missAction = s.settings.missAction := congrArg (fun t => t.settings.missAction) hl.rest
  have hn : namings a u = namings a s - emptied a s u := by
    rw [namings_eq, namings_eq, entryNamings_left he, hm]
    omega
  rw [hl.refs, hn]
  exact (hs a).change (emptied a s u) 0 fun _ => rfl

/-! ### Events that move a reference -/

theorem moveRef_addRef_at (o : Option (Fin 32)) (a : Fin 32) (s : State) : (moveRef addRef o s).actions[a] =
    { s.actions[a] with refs := s.actions[a].refs + namedBy o a } := by
  cases o with
  | none => rfl
  | some b => exact (addRef_at b a s).trans (by simp [-Fin.getElem_fin, namedBy])

theorem moveRef_dropRef_at (o : Option (Fin 32)) (a : Fin 32) (s : State) : (moveRef dropRef o s).actions[a] =
    { s.actions[a] with refs := s.actions[a].refs - namedBy o a } := by
  cases o with
  | none => rfl
  | some b => exact (dropRef_at b a s).trans (by simp [-Fin.getElem_fin, namedBy])

/-- A write of miss_action reaches the setting and the action table alone (R34). -/
theorem setMissAction_reaches (m : Option (Fin 32)) (s : State) : setMissAction m s =
    { s with actions := (setMissAction m s).actions, settings := { s.settings with missAction := m } } := by
  unfold setMissAction
  split
  · rename_i h
    rw [h]
  · cases m <;> cases s.settings.missAction <;> rfl

/-- A write of miss_action moves one reference, from the record it named to the one it names now (R34). -/
theorem setMissAction_refMoved (m : Option (Fin 32)) (s : State) :
    refMoved s.settings.missAction m s (setMissAction m s) := by
  intro a
  unfold setMissAction
  split
  · rename_i h
    simp [-Fin.getElem_fin, ← h]
  · rename_i h
    refine (moveRef_addRef_at m a _).trans ?_
    rw [moveRef_dropRef_at]
    simp only [namedBy]
    by_cases hm : m = some a
    · subst hm
      simp [-Fin.getElem_fin, Ne.symm h]
    · simp [-Fin.getElem_fin, hm]

/-- A moved reference keeps every record legal if it moves with a naming, to a defined record (R33, R34). -/
theorem refsLegal_moved {old new : Option (Fin 32)} {s u : State} (hs : refsLegal s) (hm : refMoved old new s u)
    (hn : ∀ a, namings a u + namedBy old a = namings a s + namedBy new a)
    (hd : ∀ a : Fin 32, new = some a → s.actions[a].defined = true) : refsLegal u := by
  intro a
  have hna : namings a u = namings a s - (if old = some a ∧ new ≠ some a then 1 else 0) +
      (if new = some a ∧ old ≠ some a then 1 else 0) := by
    have := hn a
    unfold namedBy at this
    by_cases ho : old = some a <;> by_cases hw : new = some a <;> simp [ho, hw] at this ⊢ <;> omega
  rw [hm a, hna]
  refine (hs a).change _ _ fun hu => if_neg fun ⟨hw, _⟩ => ?_
  rw [hd a hw] at hu
  cases hu

theorem refsLegal_setMissAction {m : Option (Fin 32)} {s : State} (hs : refsLegal s)
    (hd : ∀ a : Fin 32, m = some a → s.actions[a].defined = true) : refsLegal (setMissAction m s) := by
  refine refsLegal_moved hs (setMissAction_refMoved m s) (fun a => ?_) hd
  have hn : namings a (setMissAction m s) = entryNamings a s + namedBy m a := by
    rw [setMissAction_reaches]
    rfl
  rw [hn, namings_eq]
  omega

theorem refsLegal_writeEntry {i : Fin 64} {e : Entry} {s : State} (hs : refsLegal s) (he : e.state = .pending)
    (hd : s.actions[e.action].defined = true) : refsLegal (writeEntry i e s) := by
  have hr := writeEntry_reaches i e s
  have hnew : e.named = some e.action := if_neg (by rw [he]; decide)
  refine refsLegal_moved hs (writeEntry_refMoved i e s) (fun a => ?_) (fun a ha => Option.some.inj ha ▸ hd)
  have hmiss : (writeEntry i e s).settings.missAction = s.settings.missAction := by rw [hr]
  have hset := entryNamings_set a (congrArg State.entries hr)
  rw [hnew] at hset
  rw [namings_eq, namings_eq, hmiss]
  change _ + namedBy s.entries[i].named a = _
  omega

/-! ### Requests that replace a record -/

/-- A record replaced by a legal one with the same count. -/
theorem refsLegal_setRecord {a : Fin 32} {r : ActionRecord} {s : State} (hs : refsLegal s)
    (hr : RecordLegal (namings a s) r) : refsLegal (s.setRecord a r) := by
  intro b
  rw [State.setRecord_at]
  split
  · rename_i hab
    exact hab ▸ hr
  · exact hs b

/-! ### The events on Tail -/

/-- The release of the held entry drops its reference if it empties it (R12). -/
theorem refsLegal_releaseHeld (s : State) (hs : refsLegal s) : refsLegal (releaseHeld s) := by
  have h := releaseHeld_released s
  refine refsLegal_left hs h.toEntriesLeft fun i => ?_
  rw [h.entries]
  split
  · exact .cleared _
  · exact .refl _

theorem refsLegal_failReception (c : Counter) (s : State) (hs : refsLegal s) : refsLegal (failReception c s) := by
  obtain ⟨_, h⟩ := failReception_eq c s
  exact refsLegal_congr (refsLegal_releaseHeld s hs) (by rw [h]; rfl)

theorem refsLegal_disposeCell (v : Verdict) (h : Header) (buf : List Byte) (s : State) (hs : refsLegal s) :
    refsLegal (disposeCell v h buf s) := by
  unfold disposeCell
  dsimp only
  generalize decideOutcome v (countVerdict v h buf s) = o
  obtain ⟨_, _, _, _, _, h1⟩ := countVerdict_frame v h buf s
  obtain ⟨_, _, _, h2⟩ := countOutcome_frame o (countVerdict v h buf s)
  obtain ⟨_, _, _, _, _, h3⟩ := captureCell_frame v o h buf (countOutcome o (countVerdict v h buf s))
  have hc : refsLegal (captureCell v o h buf (countOutcome o (countVerdict v h buf s))) :=
    refsLegal_congr hs (by rw [h3, h2, h1]; rfl)
  rw [closeCell_eq]
  exact refsLegal_congr (refsLegal_releaseHeld _ hc) rfl

/-- Classification changes a hit count, and no entry names another record (R11, R14). -/
theorem refsLegal_reachVerdict (r : Reception) (l : Latched) (s : State) (hs : refsLegal s) :
    refsLegal (reachVerdict r l s).1 := by
  unfold reachVerdict
  split
  · exact hs
  · have hc := formVerdict_classified l r.buf s
    refine refsLegal_of_names hs (fun a i => ?_) (by dsimp only; rw [hc.rest]) (by dsimp only; rw [hc.rest])
    refine (congrArg (names a) (hc.hits i)).trans ?_
    split <;> rfl

theorem refsLegal_tailEnd (ok : Nat → List Byte → Bool) (s : State) (hs : refsLegal s) :
    refsLegal (tailEnd ok s) := by
  unfold tailEnd
  split
  · rename_i r _
    split
    · exact refsLegal_failReception _ s hs
    · rename_i l _
      have hk := refsLegal_reachVerdict r l s hs
      unfold endReception
      dsimp only
      split
      · exact refsLegal_disposeCell _ _ _ _ hk
      · exact refsLegal_failReception _ _ hk
  · exact hs
  · exact refsLegal_congr hs rfl

theorem refsLegal_tailAbort (s : State) (hs : refsLegal s) : refsLegal (tailAbort s) := by
  unfold tailAbort
  split
  · exact refsLegal_failReception _ s hs
  · exact hs
  · exact refsLegal_congr hs rfl

theorem refsLegal_tailHeaderComplete (r : Reception) (s : State) (hs : refsLegal s) :
    refsLegal (tailHeaderComplete r s) := by
  unfold tailHeaderComplete
  dsimp only
  split
  · exact refsLegal_congr hs rfl
  · split
    · exact refsLegal_reachVerdict _ _ _ (refsLegal_congr hs rfl)
    · exact refsLegal_congr hs rfl

theorem refsLegal_tailByte (b : Byte) (s : State) (hs : refsLegal s) : refsLegal (tailByte b s) := by
  unfold tailByte
  split
  · split
    · dsimp only
      split
      · split
        · exact refsLegal_tailHeaderComplete _ _ (refsLegal_congr hs rfl)
        · exact refsLegal_congr hs rfl
      · split
        · exact refsLegal_reachVerdict _ _ _ (refsLegal_congr hs rfl)
        · exact refsLegal_congr hs rfl
    · exact hs
  · exact hs
  · exact hs

/-! ### The events on Head and the transmissions -/

theorem refsLegal_headTxEnd (e : TxEnd) (s : State) (hs : refsLegal s) : refsLegal (headTxEnd e s) := by
  unfold headTxEnd
  split
  · exact hs
  · rename_i src cell _
    obtain ⟨_, _, _, hc⟩ := recordCut_frame .head e cell s
    have hs' : refsLegal { recordCut .head e cell s with headTx := .idle } := refsLegal_congr hs (by rw [hc]; rfl)
    generalize ({ recordCut .head e cell s with headTx := .idle } : State) = u at hs'
    cases src with
    | urgent =>
      unfold endUrgent
      dsimp only
      split
      · exact refsLegal_congr hs' rfl
      · exact hs'
    | normal =>
      unfold endNormal
      dsimp only
      split
      · exact refsLegal_congr hs' rfl
      · exact hs'
    | reply =>
      dsimp only
      obtain ⟨rs, h | h⟩ := endReply_cases u
      · rw [h]
        exact refsLegal_congr hs' rfl
      · rw [h, ← deviceReset_after]
        exact refsLegal_deviceReset _
    | report q => exact refsLegal_congr hs' rfl
    | detached => exact hs'

theorem refsLegal_tailTxEnd (e : TxEnd) (s : State) (hs : refsLegal s) : refsLegal (tailTxEnd e s) := by
  obtain ⟨_, _, _, _, _, h⟩ := tailTxEnd_frame e s
  exact refsLegal_congr hs (by rw [h]; rfl)

/-! ### The taking of a request -/

/-- A change made at every position keeps the records legal if it does so at one. -/
theorem refsLegal_atEveryPosition {f : Fin 64 → State → State} (hf : ∀ i s, refsLegal s → refsLegal (f i s))
    (s : State) (hs : refsLegal s) : refsLegal (atEveryPosition f s) := by
  unfold atEveryPosition
  generalize List.finRange 64 = l
  induction l generalizing s with
  | nil => exact hs
  | cons i l ih => exact ih _ (hf i s hs)

theorem refsLegal_emptyEntry (i : Fin 64) (s : State) (hs : refsLegal s) (hi : s.entries[i].state ≠ .empty) :
    refsLegal (emptyEntry i s) := by
  refine refsLegal_left hs (emptyEntry_left i s hi) fun j => ?_
  rw [emptyEntry_entries]
  split
  · exact .cleared _
  · exact .refl _

theorem refsLegal_retireEntry (i : Fin 64) (s : State) (hs : refsLegal s) : refsLegal (retireEntry i s) := by
  refine refsLegal_left hs (retireEntry_left i s) fun j => ?_
  rw [retireEntry_at]
  split
  · rename_i hj
    exact hj ▸ .retired i s
  · exact .refl _

theorem refsLegal_activateAt (b : Fin 8) (c : Option (Fin 8)) (i : Fin 64) (s : State) (hs : refsLegal s) :
    refsLegal (activateAt b c i s) := by
  unfold activateAt
  dsimp only
  split
  · rename_i h
    refine refsLegal_left hs (.setEntry i s (by simp)) fun j => ?_
    rw [State.setEntry_at]
    split
    · rename_i hj
      subst hj
      exact fun _ => ⟨by rw [h.1]; decide, rfl⟩
    · exact .refl _
  · split
    · exact refsLegal_retireEntry i s hs
    · exact hs

theorem entryOfArgs_action {args : List Byte} {a : Fin 32} {e : Entry} (h : entryOfArgs args a = some e) :
    e.action = a := by
  unfold entryOfArgs at h
  split at h <;> cases h
  rfl

theorem refsLegal_answerEntryWrite (args : List Byte) (s : State) (hs : refsLegal s) :
    refsLegal (answerEntryWrite args s).st := by
  unfold answerEntryWrite
  split
  · exact hs
  · split
    · exact hs
    · split
      · exact hs
      · rename_i he
        split
        · exact hs
        · split
          · exact hs
          · split
            · exact hs
            · rename_i hd
              obtain rfl := entryOfArgs_action he
              exact refsLegal_writeEntry hs (entryOfArgs_pending he) (by simpa using hd)

theorem namesUndefined_missAction (v : Nat) (s : State) : namesUndefined .missAction v s = false ↔
    ∀ a : Fin 32, position 32 v = some a → s.actions[a].defined = true := by
  unfold namesUndefined
  cases position 32 v with
  | none => simp
  | some a => simp

theorem refsLegal_answerSettingWrite (args : List Byte) (s : State) (hs : refsLegal s) :
    refsLegal (answerSettingWrite args s).st := by
  unfold answerSettingWrite
  split
  · exact hs
  · rename_i i _
    dsimp only
    split
    · exact hs
    · split
      · exact hs
      · rename_i hd
        cases i with
        | missAction =>
          exact refsLegal_setMissAction hs ((namesUndefined_missAction _ s).1 (by simpa using hd))
        | _ => exact refsLegal_congr hs rfl

/-- A write of the fields of a record keeps its count and defines it (R35). -/
theorem refsLegal_answerActionWrite (args : List Byte) (s : State) (hs : refsLegal s) :
    refsLegal (answerActionWrite args s).st := by
  unfold answerActionWrite
  dsimp only
  split
  · split
    · exact refsLegal_setRecord hs ⟨(hs _).refs, fun h => (by cases h)⟩
    · exact hs
  · exact hs

/-- A record is undefined only while nothing names it (R38). -/
theorem refsLegal_answerActionClear (args : List Byte) (s : State) (hs : refsLegal s) :
    refsLegal (answerActionClear args s).st := by
  unfold answerActionClear
  split
  · exact hs
  · rename_i a _
    dsimp only
    split
    · exact hs
    · rename_i hfree
      have hn : namings a s = 0 := by
        rw [← (hs a).refs]
        omega
      exact refsLegal_setRecord hs (hn ▸ ⟨rfl, fun _ => rfl⟩)

theorem refsLegal_ownerAnswer (k : Kind) (args : List Byte) (s : State) (hs : refsLegal s) :
    refsLegal (ownerAnswer k args s).st := by
  cases k with
  | settingWrite => exact refsLegal_answerSettingWrite args s hs
  | entryWrite => exact refsLegal_answerEntryWrite args s hs
  | actionWrite => exact refsLegal_answerActionWrite args s hs
  | actionClear => exact refsLegal_answerActionClear args s hs
  | batchActivate =>
    simp only [ownerAnswer, answerBatchActivate, refusal]
    split
    · dsimp only
      exact refsLegal_atEveryPosition (refsLegal_activateAt _ _) s hs
    · exact hs
  | entryRetire =>
    simp only [ownerAnswer, answerEntryRetire, refusal]
    split
    · exact hs
    · exact refsLegal_retireEntry _ s hs
  | batchRetire =>
    simp only [ownerAnswer, answerBatchRetire, refusal]
    split
    · exact hs
    · dsimp only
      refine refsLegal_atEveryPosition (fun i s hs => ?_) s hs
      unfold retireIfIn
      split
      · exact refsLegal_retireEntry i s hs
      · exact hs
  | batchDiscard =>
    simp only [ownerAnswer, answerBatchDiscard, refusal]
    split
    · exact hs
    · dsimp only
      refine refsLegal_atEveryPosition (fun i s hs => ?_) s hs
      unfold discardIfIn
      split
      · rename_i h
        exact refsLegal_emptyEntry i s hs (by rw [h.1]; decide)
      · exact hs
  | _ =>
    refine refsLegal_congr hs ?_
    dsimp only [ownerAnswer, answerPing, answerIdentRead, answerAddressAssign, answerSettingRead, answerEntryRead,
      answerActionRead, answerMeterWrite, answerMeterRead, answerBinruleWrite, answerBinruleRead, answerBinsRead,
      answerBinsReadClear, answerBinsClear, answerCaptureFetch, answerCaptureRelease, answerReportAck,
      answerStatsRead, answerStatsClear, answerDeviceReset, refusal]
    repeat' split
    all_goals rfl

/-! ### Every event -/

theorem refsLegal_keptByTakingParts : KeptByTakingParts refsLegal where
  reset s _ := refsLegal_deviceReset s
  owner := refsLegal_ownerAnswer
  count _ _ _ hs := refsLegal_congr hs rfl
  queue _ _ _ hs := refsLegal_congr hs rfl
  store _ _ hs := refsLegal_congr hs rfl

theorem refsLegal_takePayload (f : Form) (payload : List Byte) (s : State) (hs : refsLegal s) :
    refsLegal (takePayload f payload s) := by
  unfold takePayload
  split
  · exact refsLegal_keptByTakingParts.take f _ _ _ s hs
  · exact refsLegal_congr hs rfl

theorem refsLegal_joinDownstream (c : Cell) (s : State) (hs : refsLegal s) : refsLegal (joinDownstream c s) := by
  obtain ⟨_, _, h⟩ := joinDownstream_frame c s
  exact refsLegal_congr hs (by rw [h]; rfl)

theorem refsLegal_acceptDownstream (cell : Cell) (s : State) (hs : refsLegal s) :
    refsLegal (acceptDownstream cell s) := by
  have hcount : ∀ c, refsLegal (s.count c) := fun c => refsLegal_congr hs rfl
  have hboth : refsLegal ((s.count .received).count .taken) := refsLegal_congr hs rfl
  unfold acceptDownstream
  dsimp only
  split
  · exact refsLegal_takePayload _ _ _ hboth
  · exact refsLegal_joinDownstream _ _ (hcount _)
  · exact refsLegal_takePayload _ _ _ (refsLegal_joinDownstream _ _ hboth)

theorem refsLegal_headEnd (ok : Nat → List Byte → Bool) (s : State) (hs : refsLegal s) :
    refsLegal (headEnd ok s) := by
  unfold headEnd
  split
  · dsimp only
    split
    · exact refsLegal_congr hs rfl
    · split
      · exact refsLegal_acceptDownstream _ _ (refsLegal_congr hs rfl)
      · exact refsLegal_congr hs rfl
  · exact hs
  · exact refsLegal_congr hs rfl

theorem refsLegal_keptByPortParts : KeptByPortParts refsLegal where
  port p x s hs := refsLegal_congr hs (by cases p <;> rfl)
  start p s hs := by
    cases p with
    | head =>
      obtain ⟨_, h⟩ := headStartOfCell_frame s
      exact refsLegal_congr hs (by rw [startEvent, h]; rfl)
    | tail =>
      obtain ⟨_, _, _, _, _, h⟩ := tailStartOfCell_frame s
      exact refsLegal_congr hs (by rw [startEvent, h]; rfl)
  byte p b s hs := by
    cases p with
    | head =>
      obtain ⟨_, _, h⟩ := headByte_frame b s
      exact refsLegal_congr hs (by rw [byteEvent, h]; rfl)
    | tail => exact refsLegal_tailByte b s hs
  stop p s hs := by
    cases p with
    | head => exact refsLegal_headEnd _ s hs
    | tail => exact refsLegal_tailEnd _ s hs
  fail p s hs := by
    cases p with
    | head => exact refsLegal_headEnd _ s hs
    | tail => exact refsLegal_tailEnd _ s hs
  abort p s hs := by
    cases p with
    | head =>
      obtain ⟨_, _, h⟩ := headAbort_frame s
      exact refsLegal_congr hs (by rw [abortEvent, h]; rfl)
    | tail => exact refsLegal_tailAbort s hs
  txAbort p s hs := by
    cases p with
    | head => exact refsLegal_headTxEnd _ s hs
    | tail => exact refsLegal_tailTxEnd _ s hs
  link n s hs := refsLegal_occur _ n s hs

theorem refsLegal_keptByEvents : KeptByEvents refsLegal where
  pending _ _ hs := refsLegal_congr hs rfl
  powerOn _ _ := refsLegal_of_reset rfl
  hold _ hs := refsLegal_congr hs rfl
  freeIndex _ _ hs := refsLegal_congr hs rfl
  grant s hs := by
    obtain ⟨_, _, _, _, _, _, _, h⟩ := headGrant_frame s
    exact refsLegal_congr hs (by rw [h]; rfl)
  start s hs := by
    obtain ⟨_, h⟩ := tailStart_frame s
    exact refsLegal_congr hs (by rw [h]; rfl)
  headTx := refsLegal_headTxEnd
  tailTx := refsLegal_tailTxEnd
  symbol := refsLegal_keptByPortParts.receive
  detect := refsLegal_keptByPortParts.detect
  lose := refsLegal_keptByPortParts.lose
  take := refsLegal_keptByTakingParts.take
  refill s hs := by
    obtain ⟨_, _, h⟩ := expireRefill_frame s
    exact refsLegal_congr hs (by rw [h]; rfl)
  expire q s hs := by
    obtain ⟨_, _, h⟩ := expireSequence_frame q s
    exact refsLegal_congr hs (by rw [h]; rfl)
  advance _ hs := refsLegal_congr hs rfl

/-- Settles O53: each kind of event keeps every record legal, and so does every step. -/
theorem stepKeepsEveryReferenceCountExact : Obligations.StepKeepsEveryReferenceCountExact := by
  intro s t hs he
  rw [← refsLegal_iff] at hs ⊢
  exact refsLegal_keptByEvents.step s t hs he

end Sys2Proof.Machine
end

section
/-! PROOF. O13, O19 and O20: SETTING_WRITE of miss_action and the three requests of the action table. How references
move is said with O53; here are the checks, and what the arguments and the replies carry. -/

namespace Sys2Proof.Machine

/-! ### SETTING_WRITE of miss_action -/

theorem position_missActionCode (new : Option (Fin 32)) : position 32 (missActionCode new) = new := by
  cases new with
  | none => rfl
  | some a => exact position_eq_some rfl

theorem settingInRange_missActionCode (new : Option (Fin 32)) :
    settingInRange .missAction (missActionCode new) = true := by
  cases new with
  | none => rfl
  | some a => exact Bool.or_eq_true_iff.2 (.inr (decide_eq_true (Nat.le_of_lt_succ a.isLt)))

/-- The two value bytes of a miss_action that names a record (R216). -/
theorem bytes16_missActionCode_some (a : Fin 32) : bytes16 (missActionCode (some a)) = [0, byteOf a.val] := by
  have h : a.val / 256 = 0 := by omega
  simp only [bytes16, missActionCode, h]
  rfl

/-- A SETTING_WRITE that carries a value of miss_action sets it, or is refused (R170, R171). -/
theorem answerSettingWrite_missAction {hi lo : Byte} {new : Option (Fin 32)}
    (h : hi.toNat * 256 + lo.toNat = missActionCode new) (more : List Byte) (s : State) :
    answerSettingWrite (0 :: hi :: lo :: more) s =
      if namesUndefined .missAction (missActionCode new) s then refusal .undefinedAction s
      else ⟨setMissAction new s, .ok, bytes16 (missActionCode s.settings.missAction)⟩ := by
  have hv : argWord (0 :: hi :: lo :: more) 1 = missActionCode new := h
  have hset : setSetting .missAction (missActionCode new) s = setMissAction new s :=
    congrArg (setMissAction · s) (position_missActionCode new)
  have hi : settingItemOf (argNat (0 :: hi :: lo :: more) 0) = some .missAction := rfl
  unfold answerSettingWrite
  rw [hi]
  dsimp only
  rw [hv, settingInRange_missActionCode, hset, if_neg (by decide)]
  rfl

/-- Settles O13: the write moves one reference with the setting, or names an undefined record. -/
theorem missActionWriteMovesTheReference : Obligations.MissActionWriteMovesTheReference := by
  intro tag hi lo more s new hs hv
  have hw := answerSettingWrite_missAction (new := new) (hv.trans (by cases new <;> rfl)) more s
  have hnames := namesUndefined_missAction (missActionCode new) s
  rw [position_missActionCode] at hnames
  refine ⟨fun hd => ?_, fun a ha hd => ?_⟩
  · rw [hnames.2 hd, if_neg (by decide)] at hw
    refine ⟨setMissAction new s, ?_, setMissAction_reaches new s, setMissAction_refMoved new s⟩
    refine (exec_answered (k := .settingWrite) (args := 0 :: hi :: lo :: more) hs (by decide)
      (Nat.le_add_left _ _) hw).trans ?_
    cases s.settings.missAction with
    | none => rfl
    | some a => rw [bytes16_missActionCode_some]; rfl
  · have hno : namesUndefined .missAction (missActionCode new) s = true := by
      rw [← Bool.not_eq_false, hnames]
      exact fun h => by rw [h a ha] at hd; cases hd
    rw [if_pos hno] at hw
    exact exec_answered (k := .settingWrite) hs (by decide) (Nat.le_add_left _ _) hw

/-! ### The record that the arguments carry -/

@[simp] theorem dispositionOf_code (d : Disposition) : dispositionOf d.code = some d := by
  cases d <;> rfl

theorem dispositionOf_isSome_iff (b : Byte) : (dispositionOf b).isSome = true ↔ b.toNat ≤ 3 := by
  revert b
  decide

@[simp] theorem classOf_code (c : CellClass) : classOf c.code = some c := by
  cases c <;> rfl

theorem classOf_isSome_iff (b : Byte) : (classOf b).isSome = true ↔ b.toNat ≤ 1 := by
  revert b
  decide

/-- An argument that may be absent is read as it is carried. -/
theorem optPosition_eq_some {n k : Nat} {present : Bool} {o : Option (Fin n)}
    (h : o.map Fin.val = if present then some k else none) : optPosition present n k = some o := by
  unfold optPosition
  cases present with
  | false => rw [Option.map_eq_none_iff.1 h]; rfl
  | true =>
    obtain ⟨i, hi, hk⟩ := Option.map_eq_some_iff.1 h
    rw [if_pos rfl, position_eq_some hk.symm, hi]
    rfl

theorem optPosition_isSome_iff (present : Bool) (n k : Nat) :
    (optPosition present n k).isSome = true ↔ (present = true → k < n) := by
  unfold optPosition
  cases present with
  | false => simp
  | true => simp [position_isSome_iff]

/-- R35, R216: the arguments of an ACTION_WRITE, from the disposition on, are these five fields. -/
structure ActionCarried (args : List Byte) (x : Action) : Prop where
  disposition : x.disposition.code = argByte args 1
  cls : x.cls.code = argByte args 2
  rewrite : x.rewrite.map BitVec.toNat = if (argByte args 3).getLsbD 0 then some (argNat args 4) else none
  meter : x.meter.map Fin.val = if (argByte args 3).getLsbD 1 then some (argNat args 5) else none
  rule : x.rule.map Fin.val = if (argByte args 3).getLsbD 2 then some (argNat args 6) else none

/-- The rewrite channel as ACTION_WRITE reads it (R35). -/
theorem ActionCarried.rewriteRead {args : List Byte} {x : Action} (h : ActionCarried args x) :
    optPosition ((argByte args 3).getLsbD 0) 64 (argNat args 4) = some (x.rewrite.map BitVec.toFin) := by
  refine optPosition_eq_some ?_
  rw [← h.rewrite, Option.map_map]
  rfl

/-! ### ACTION_WRITE -/

/-- An ACTION_WRITE that passes the checks defines the record it carries (R36). -/
theorem answerActionWrite_carried {args : List Byte} {a : Fin 32} {x : Action} (ha : argNat args 0 = a.val)
    (h : ActionCarried args x) (s : State) : answerActionWrite args s =
      ⟨s.setRecord a ⟨true, x, s.actions[a].refs⟩, .ok,
        [flagByte s.actions[a].defined, byteOf s.actions[a].refs]⟩ := by
  have hx : (x.rewrite.map BitVec.toFin).map BitVec.ofFin = x.rewrite := by
    cases x.rewrite <;> rfl
  unfold answerActionWrite
  simp only [position_eq_some ha, optPosition_eq_some h.meter, optPosition_eq_some h.rule, ← h.disposition, ← h.cls,
    dispositionOf_code, classOf_code, h.rewriteRead, hx]

/-- The first check: the record, the meter and the bin rule (R35). -/
theorem answerActionWrite_badIndex {args : List Byte} (s : State)
    (h : 31 < argNat args 0 ∨ ((argByte args 3).getLsbD 1 = true ∧ 15 < argNat args 5) ∨
      ((argByte args 3).getLsbD 2 = true ∧ 7 < argNat args 6)) :
    answerActionWrite args s = refusal .badIndex s := by
  unfold answerActionWrite
  dsimp only
  split
  · rename_i hp hm hr
    have hp' := (position_isSome_iff _ _).1 (Option.isSome_of_mem hp)
    have hm' := (optPosition_isSome_iff _ _ _).1 (Option.isSome_of_mem hm)
    have hr' := (optPosition_isSome_iff _ _ _).1 (Option.isSome_of_mem hr)
    rcases h with h | ⟨hf, h⟩ | ⟨hf, h⟩
    · omega
    · exact absurd (hm' hf) (by omega)
    · exact absurd (hr' hf) (by omega)
  · rfl

/-- The second check: the disposition, the class and the rewrite channel (R35). -/
theorem answerActionWrite_badValue {args : List Byte} (s : State) (h0 : argNat args 0 ≤ 31)
    (h1 : (argByte args 3).getLsbD 1 = true → argNat args 5 ≤ 15)
    (h2 : (argByte args 3).getLsbD 2 = true → argNat args 6 ≤ 7)
    (h : 3 < argNat args 1 ∨ 1 < argNat args 2 ∨ ((argByte args 3).getLsbD 0 = true ∧ 63 < argNat args 4)) :
    answerActionWrite args s = refusal .badValue s := by
  obtain ⟨a, ha⟩ := Option.isSome_iff_exists.1 ((position_isSome_iff 32 _).2 (Nat.lt_succ_of_le h0))
  obtain ⟨m, hm⟩ := Option.isSome_iff_exists.1
    ((optPosition_isSome_iff _ 16 _).2 fun hf => Nat.lt_succ_of_le (h1 hf))
  obtain ⟨r, hr⟩ := Option.isSome_iff_exists.1
    ((optPosition_isSome_iff _ 8 _).2 fun hf => Nat.lt_succ_of_le (h2 hf))
  unfold answerActionWrite
  simp only [ha, hm, hr]
  split
  · rename_i hd hc hw
    have hd' : argNat args 1 ≤ 3 := (dispositionOf_isSome_iff _).1 (Option.isSome_of_mem hd)
    have hc' : argNat args 2 ≤ 1 := (classOf_isSome_iff _).1 (Option.isSome_of_mem hc)
    have hw' := (optPosition_isSome_iff _ _ _).1 (Option.isSome_of_mem hw)
    rcases h with h | h | ⟨hf, h⟩
    · omega
    · omega
    · exact absurd (hw' hf) (by omega)
  · rfl

/-- An accepted ACTION_WRITE with all its arguments is answered as the action table answers. -/
theorem exec_actionWrite {tag : Byte} {args results : List Byte} {s u : State} {st : Status} (hs : Accepts 12 tag s)
    (hl : 7 ≤ args.length) (ha : answerActionWrite args s = ⟨u, st, results⟩) :
    exec (.actionWrite .addressed tag args) s = .next (settle (answered 12 tag st results u)) :=
  exec_answered (k := .actionWrite) hs (by decide) (Nat.add_le_add_right hl 2) ha

/-- Settles O19: the record that the arguments carry, or the two refusals in the order of R35. -/
theorem actionWriteDefinesTheRecord : Obligations.ActionWriteDefinesTheRecord := by
  intro tag args s hs hl
  refine ⟨fun a x ha hd hc hw hm hr => ?_, fun h => ?_, fun h0 h1 h2 h => ?_⟩
  · exact exec_actionWrite hs hl (answerActionWrite_carried ha ⟨hd, hc, hw, hm, hr⟩ s)
  · exact exec_actionWrite hs hl (answerActionWrite_badIndex s h)
  · exact exec_actionWrite hs hl (answerActionWrite_badValue s h0 h1 h2 h)

/-! ### ACTION_READ and ACTION_CLEAR -/

/-- The presence flags as a sum of bits (R216). -/
theorem presenceFlags_eq (x : Action) : x.presenceFlags =
    (if x.rewrite.isSome then 1 else 0) + (if x.meter.isSome then 2 else 0) + (if x.rule.isSome then 4 else 0) := by
  unfold Action.presenceFlags
  cases x.rewrite.isSome <;> cases x.meter.isSome <;> cases x.rule.isSome <;> rfl

/-- ACTION_READ of a position (R37). -/
theorem answerActionRead_at {b : Byte} {a : Fin 32} (h : b.toNat = a.val) (more : List Byte) (s : State) :
    answerActionRead (b :: more) s = ⟨s, .ok, [b, flagByte s.actions[a].defined,
      s.actions[a].act.disposition.code, s.actions[a].act.cls.code, s.actions[a].act.presenceFlags,
      optByte (s.actions[a].act.rewrite.map BitVec.toFin), optByte s.actions[a].act.meter,
      optByte s.actions[a].act.rule, byteOf s.actions[a].refs]⟩ := by
  simp only [answerActionRead, argNat_zero_cons, position_eq_some h, byteOf_of_toNat_eq h]

theorem answerActionRead_past {b : Byte} (h : 31 < b.toNat) (more : List Byte) (s : State) :
    answerActionRead (b :: more) s = refusal .badIndex s := by
  simp only [answerActionRead, argNat_zero_cons, position_eq_none (n := 32) h]

/-- ACTION_CLEAR of a position (R38). -/
theorem answerActionClear_at {b : Byte} {a : Fin 32} (h : b.toNat = a.val) (more : List Byte) (s : State) :
    answerActionClear (b :: more) s =
      if 0 < s.actions[a].refs then ⟨s, .inUse, [byteOf s.actions[a].refs]⟩
      else ⟨s.setRecord a ActionRecord.undefined, .ok, [flagByte s.actions[a].defined]⟩ := by
  simp only [answerActionClear, argNat_zero_cons, position_eq_some h]

theorem answerActionClear_past {b : Byte} (h : 31 < b.toNat) (more : List Byte) (s : State) :
    answerActionClear (b :: more) s = refusal .badIndex s := by
  simp only [answerActionClear, argNat_zero_cons, position_eq_none (n := 32) h]

/-- Settles O20: the record as it stands, its clearing or its refusal, and BAD_INDEX. -/
theorem actionReadAndClear : Obligations.ActionReadAndClear := by
  intro tag pos more s
  refine ⟨fun a r ha hr => ⟨fun hs => ?_, fun hs hu => ?_, fun hs hf => ?_⟩, fun h => ⟨fun hs => ?_, fun hs => ?_⟩⟩
  · subst hr
    have hread := answerActionRead_at ha more s
    rw [presenceFlags_eq] at hread
    refine (exec_answered (k := .actionRead) hs (by decide) (Nat.le_add_left _ _) hread).trans ?_
    cases s.actions[a].act.rewrite <;> cases s.actions[a].act.meter <;> cases s.actions[a].act.rule <;> rfl
  · subst hr
    exact exec_answered (k := .actionClear) hs (by decide) (Nat.le_add_left _ _)
      ((answerActionClear_at ha more s).trans (if_pos hu))
  · subst hr
    exact exec_answered (k := .actionClear) hs (by decide) (Nat.le_add_left _ _)
      ((answerActionClear_at ha more s).trans (if_neg (by omega)))
  · exact exec_answered (k := .actionRead) hs (by decide) (Nat.le_add_left _ _) (answerActionRead_past h more s)
  · exact exec_answered (k := .actionClear) hs (by decide) (Nat.le_add_left _ _) (answerActionClear_past h more s)

end Sys2Proof.Machine
end

section
/-! PROOF. O50: headers and cells. The layout of R213 is said once in numbers (`headerOf_cons`) and once as an inverse
(`headerOf_headerBytes`); what is read of a built and of a rewritten cell follows from the second. -/

namespace Sys2Proof.Machine

/-! ### The layout of a header -/

/-- The six values in numbers (R213). -/
theorem headerOf_cons (b0 b1 b2 b3 b4 : Byte) (rest : List Byte) :
    (headerOf (b0 :: b1 :: b2 :: b3 :: b4 :: rest)).kind.toNat = b0.toNat / 16 ∧
    (headerOf (b0 :: b1 :: b2 :: b3 :: b4 :: rest)).channel.toNat = b0.toNat % 16 * 4 + b1.toNat / 64 ∧
    (headerOf (b0 :: b1 :: b2 :: b3 :: b4 :: rest)).length = b1.toNat % 64 := by
  have h0 := b0.isLt
  have h1 := b1.isLt
  change (b0.extractLsb' 4 4).toNat = _ ∧ (b0.extractLsb' 0 4 ++ b1.extractLsb' 6 2).toNat = _ ∧
    (b1.extractLsb' 0 6).toNat = _
  rw [BitVec.toNat_append, ← Nat.shiftLeft_add_eq_or_of_lt (BitVec.isLt _)]
  simp only [BitVec.extractLsb'_toNat, Nat.shiftRight_eq_div_pow, Nat.shiftLeft_eq]
  omega

@[simp] theorem length_headerBytes (h : Header) : (headerBytes h).length = 6 := rfl

/-- The header of a cell is read as it was built (R213). -/
theorem headerOf_headerBytes {h : Header} (hl : h.length < 64) (rest : List Byte) :
    headerOf (headerBytes h ++ rest) = h := by
  have hkind : (h.kind ++ h.channel.extractLsb' 2 4).extractLsb' 4 4 = h.kind := BitVec.extractLsb'_append_eq_left
  have hhigh : (h.kind ++ h.channel.extractLsb' 2 4).extractLsb' 0 4 = h.channel.extractLsb' 2 4 :=
    BitVec.extractLsb'_append_eq_right
  have hlow : (h.channel.extractLsb' 0 2 ++ BitVec.ofNat 6 h.length).extractLsb' 6 2 = h.channel.extractLsb' 0 2 :=
    BitVec.extractLsb'_append_eq_left
  have hchannel : h.channel.extractLsb' 2 4 ++ h.channel.extractLsb' 0 2 = h.channel :=
    (BitVec.extractLsb'_append_extractLsb'_eq_extractLsb' rfl).trans BitVec.extractLsb'_eq_self
  have hlength : (h.channel.extractLsb' 0 2 ++ BitVec.ofNat 6 h.length).extractLsb' 0 6 = BitVec.ofNat 6 h.length :=
    BitVec.extractLsb'_append_eq_right
  have hread : headerOf (headerBytes h ++ rest) = ⟨(h.kind ++ h.channel.extractLsb' 2 4).extractLsb' 4 4,
      (h.kind ++ h.channel.extractLsb' 2 4).extractLsb' 0 4 ++
        (h.channel.extractLsb' 0 2 ++ BitVec.ofNat 6 h.length).extractLsb' 6 2,
      ((h.channel.extractLsb' 0 2 ++ BitVec.ofNat 6 h.length).extractLsb' 0 6).toNat, h.dest, h.src, h.seq⟩ := rfl
  rw [hread, hkind, hhigh, hlow, hchannel, hlength, BitVec.toNat_ofNat, Nat.mod_eq_of_lt hl]

/-- Five header bytes and their check pass, whatever follows them (R214). -/
theorem headerCheckPasses_append {five : List Byte} (h5 : five.length = 5) (rest : List Byte) :
    headerCheckPasses (five ++ headerCheck five :: rest) = true := by
  have hb : argByte (five ++ headerCheck five :: rest) 5 = headerCheck five := h5 ▸ argByte_at_length five rest _
  rw [headerCheckPasses, beq_iff_eq, hb, List.take_left' h5]

/-- The header check of a built header passes (R214). -/
theorem headerCheckPasses_headerBytes (h : Header) (rest : List Byte) :
    headerCheckPasses (headerBytes h ++ rest) = true := by
  rw [headerBytes, List.append_assoc]
  exact headerCheckPasses_append rfl rest

theorem drop_headerBytes (h : Header) (rest : List Byte) : (headerBytes h ++ rest).drop 6 = rest := rfl

theorem headerOf_length_lt (buf : List Byte) : (headerOf buf).length < 64 := BitVec.isLt _

/-! ### Built and rewritten cells -/

/-- A built cell after its header: the payload, and its check if it is not empty (R213). -/
theorem buildCell_eq (h : Header) (payload : List Byte) : buildCell h payload = headerBytes h ++ (payload ++
    if payload.isEmpty then [] else bytes16 (payloadCheck payload).toNat) := by
  rw [buildCell, List.append_assoc]

theorem payloadOf_buildCell (h : Header) (payload : List Byte) :
    payloadOf (buildCell h payload) payload.length = payload := by
  rw [buildCell_eq, payloadOf, drop_headerBytes, List.take_left]

theorem length_buildCell (h : Header) (payload : List Byte) :
    (buildCell h payload).length = 6 + payload.length + if payload.length = 0 then 0 else 2 := by
  rw [buildCell_eq]
  cases payload with
  | nil => rfl
  | cons b rest =>
    simp [bytes16]
    omega

/-- The two bytes after the payload of a built cell are the payload check (R213, R214). -/
theorem argNat_buildCell_check (h : Header) {payload : List Byte} (hne : payload ≠ []) :
    argNat (buildCell h payload) (6 + payload.length) * 256 + argNat (buildCell h payload) (7 + payload.length) =
      (payloadCheck payload).toNat := by
  obtain ⟨b1, b0, hb, hv⟩ := bytes16_value (payloadCheck payload).isLt
  have hcell : buildCell h payload = (headerBytes h ++ payload) ++ b1 :: [b0] := by
    rw [buildCell_eq, if_neg (by simpa using hne), hb, List.append_assoc]
  have hcell' : buildCell h payload = (headerBytes h ++ payload ++ [b1]) ++ b0 :: [] := by
    rw [hcell]
    simp
  have h1 : argByte (buildCell h payload) (6 + payload.length) = b1 := by
    have := argByte_at_length (headerBytes h ++ payload) [b0] b1
    rwa [List.length_append, length_headerBytes, ← hcell] at this
  have h0 : argByte (buildCell h payload) (7 + payload.length) = b0 := by
    have := argByte_at_length (headerBytes h ++ payload ++ [b1]) [] b0
    rw [← hcell'] at this
    rwa [show 7 + payload.length = (headerBytes h ++ payload ++ [b1]).length by simp; omega]
  rw [argNat, argNat, h1, h0, hv]

/-- The payload check of a built cell passes (R102, R214). -/
theorem payloadGood_buildCell (h : Header) (payload : List Byte) :
    PayloadGood (buildCell h payload).length false payload.length (buildCell h payload) where
  clean := rfl
  bytes := length_buildCell h payload
  check hpos := by
    have hp : ((buildCell h payload).drop 6).take payload.length = payload := payloadOf_buildCell h payload
    rw [hp, argNat_buildCell_check h (List.ne_nil_of_length_pos hpos)]

theorem rewritten_some {a : Action} {ch : BitVec 6} (h : a.rewrite = some ch) (buf : Cell) :
    rewritten a buf = headerBytes { headerOf buf with channel := ch } ++ buf.drop 6 := by
  rw [rewritten, h]
  rfl

theorem rewritten_none {a : Action} (h : a.rewrite = none) (buf : Cell) : rewritten a buf = buf := by
  rw [rewritten, h]

/-! ### What a port sends -/

theorem sends_silent {p : Side} {s : State} (h : (s.port p).txDriven = false) : s.sends p = .silent := by
  simp [State.sends, h]

theorem sends_of_none {p : Side} {s : State} (h : (s.port p).txDriven = true) (hc : s.inTransmission p = none) :
    s.sends p = .alignmentWords := by
  simp [State.sends, h, hc]

theorem sends_of_some {p : Side} {s : State} {cell : Cell} (h : (s.port p).txDriven = true)
    (hc : s.inTransmission p = some cell) :
    s.sends p = .cell ([.startDelimiter] ++ cell.map .data ++ [.endDelimiter]) := by
  simp [State.sends, h, hc, cellSymbols]

/-- Settles O50: the layout, the check values, built cells, the line, and rewritten cells. -/
theorem headersAreBuiltReadAndRewritten : Obligations.HeadersAreBuiltReadAndRewritten := by
  refine ⟨fun b0 b1 b2 b3 b4 rest h hh => ?_, by decide +kernel, fun h payload hlen h48 => ?_, fun s =>
    ⟨fun p hp => sends_silent hp, fun hd => ⟨fun hx => ?_, fun src cell hx => ?_⟩,
      fun hd => ⟨fun hx => ?_, fun cell rest hx hq => ?_⟩⟩, fun a ch buf ha hbuf => ?_⟩
  · subst hh
    obtain ⟨hkind, hchannel, hlength⟩ := headerOf_cons b0 b1 b2 b3 b4 rest
    exact ⟨hkind, hchannel, hlength, rfl, rfl, rfl⟩
  · rw [hlen]
    refine ⟨?_, ?_, payloadOf_buildCell h payload, payloadGood_buildCell h payload⟩
    · rw [buildCell_eq]
      exact headerOf_headerBytes (by omega) _
    · rw [buildCell_eq]
      exact headerCheckPasses_headerBytes h _
  · exact sends_of_none (p := .head) hd (by simp [State.inTransmission, hx])
  · exact sends_of_some (p := .head) hd (by simp [State.inTransmission, hx])
  · exact sends_of_none (p := .tail) hd (by simp [State.inTransmission, hx])
  · exact sends_of_some (p := .tail) hd (by simp [State.inTransmission, hx, hq])
  · have hl : ({ headerOf buf with channel := ch } : Header).length < 64 := headerOf_length_lt buf
    rw [rewritten_some ha]
    refine ⟨headerOf_headerBytes hl _, headerCheckPasses_headerBytes _ _,
      drop_headerBytes _ _, ?_, fun x hx => rewritten_none hx buf⟩
    rw [List.length_append, length_headerBytes, List.length_drop]
    omega

end Sys2Proof.Machine
end

section
/-! PROOF. O55: the meters stay in their ranges and the capture numbers consecutive. What an event can do to a meter is
to charge, refill, write or reset it; what it can do to the ring is to store, release or reset. -/

namespace Sys2Proof.Machine

/-! ### Legal meters -/

/-- R44: what is legal of one meter. -/
structure MeterLegal (x : Meter) : Prop where
  credit : x.credit ≤ x.burst
  rate : x.rate ≤ 4095
  burstLow : 64 ≤ x.burst
  burstHigh : x.burst ≤ 16383

theorem metersBounded_iff (s : State) : metersBounded s ↔ ∀ m : Fin 16, MeterLegal s.meters[m] :=
  ⟨fun h m => let ⟨hc, hr, hl, hh⟩ := h m; ⟨hc, hr, hl, hh⟩,
    fun h m => ⟨(h m).credit, (h m).rate, (h m).burstLow, (h m).burstHigh⟩⟩

theorem MeterLegal.of_reset : MeterLegal Meter.resetValue := by
  constructor <;> decide

/-- A charge takes at most the credit there is, and changes neither rate nor burst (R48, R49). -/
theorem MeterLegal.charged {x : Meter} (h : MeterLegal x) (size : Nat) : MeterLegal (chargedMeter size x) := by
  unfold chargedMeter
  split
  · exact ⟨(Nat.sub_le _ _).trans h.credit, h.rate, h.burstLow, h.burstHigh⟩
  · exact ⟨h.credit, h.rate, h.burstLow, h.burstHigh⟩

/-- A refill stops at the burst (R46). -/
theorem MeterLegal.refilled {x : Meter} (h : MeterLegal x) : MeterLegal x.refilled := by
  unfold Meter.refilled
  split
  · exact ⟨Nat.min_le_left _ _, h.rate, h.burstLow, h.burstHigh⟩
  · exact h

/-- A refill does to every meter, in one event, what R46 says of one. -/
theorem refillAll_meters (s : State) (m : Fin 16) : (refillAll s).meters[m] = s.meters[m].refilled :=
  Vector.getElem_map Meter.refilled m.isLt

/-! ### Legal rings -/

/-- R81: a ring of at most 8 records whose numbers are consecutive up to `next`. -/
structure RingLegal (next : Word16) (ring : List CaptureRecord) : Prop where
  room : ring.length ≤ 8
  numbers : ring.map CaptureRecord.number = ringNumbers next ring.length

theorem ringOrdered_iff (s : State) : ringOrdered s ↔ RingLegal s.nextCapture s.captures :=
  ⟨fun ⟨hl, hn⟩ => ⟨hl, hn⟩, fun ⟨hl, hn⟩ => ⟨hl, hn⟩⟩

theorem RingLegal.of_nil (next : Word16) : RingLegal next [] := ⟨Nat.zero_le _, rfl⟩

/-- The numbers before `next` with `next` after them are the numbers before the one that follows it (R81). -/
theorem ringNumbers_succ (next : Word16) (n : Nat) :
    ringNumbers (next + 1) (n + 1) = ringNumbers next n ++ [next] := by
  induction n with
  | zero => simp [ringNumbers]
  | succ n ih =>
    have hhead : next + 1 - BitVec.ofNat 16 (n + 2) = next - BitVec.ofNat 16 (n + 1) := by
      rw [show n + 2 = (n + 1) + 1 from rfl, BitVec.ofNat_add (n + 1) 1]
      bv_omega
    rw [ringNumbers, ih, hhead]
    rfl

/-- A record stored under the next number stands at the end of the order (R84). -/
theorem RingLegal.store {next : Word16} {ring : List CaptureRecord} (h : RingLegal next ring) (hroom : ring.length < 8)
    {r : CaptureRecord} (hr : r.number = next) : RingLegal (next + 1) (ring ++ [r]) := by
  refine ⟨by simpa using hroom, ?_⟩
  rw [List.map_append, h.numbers, List.length_append, List.length_singleton, ringNumbers_succ, List.map_singleton, hr]

/-- A release takes the oldest record (R89). -/
theorem RingLegal.release {next : Word16} {r : CaptureRecord} {rest : List CaptureRecord}
    (h : RingLegal next (r :: rest)) : RingLegal next rest :=
  ⟨(Nat.le_succ _).trans h.room, (List.cons.inj h.numbers).2⟩

/-! ### Events that keep meters and ring -/

/-- R44, R81: every meter is legal, and so is the capture ring. -/
structure MetersAndRingLegal (s : State) : Prop where
  meters : ∀ m : Fin 16, MeterLegal s.meters[m]
  ring : RingLegal s.nextCapture s.captures

theorem metersAndRingLegal_iff (s : State) : MetersAndRingLegal s ↔ metersBounded s ∧ ringOrdered s := by
  rw [metersBounded_iff, ringOrdered_iff]
  exact ⟨fun ⟨hm, hr⟩ => ⟨hm, hr⟩, fun ⟨hm, hr⟩ => ⟨hm, hr⟩⟩

/-- What both invariants are about. -/
def metersAndRing (s : State) : Vector Meter 16 × Word16 × List CaptureRecord :=
  (s.meters, s.nextCapture, s.captures)

theorem MetersAndRingLegal.congr {s u : State} (hs : MetersAndRingLegal s) (h : metersAndRing u = metersAndRing s) :
    MetersAndRingLegal u := by
  obtain ⟨hm, h⟩ := Prod.mk.inj h
  obtain ⟨hn, hc⟩ := Prod.mk.inj h
  exact ⟨fun m => hm ▸ hs.meters m, hn ▸ hc ▸ hs.ring⟩

/-- Every meter has its reset value, and the ring is empty, after a reset (R58, R92). -/
theorem MetersAndRingLegal.of_reset {u : State} (h : metersAndRing u = metersAndRing State.reset) :
    MetersAndRingLegal u := by
  have hr : MetersAndRingLegal State.reset :=
    ⟨fun m => (Vector.getElem_replicate m.isLt : State.reset.meters[m] = _) ▸ .of_reset, .of_nil _⟩
  exact hr.congr h

theorem MetersAndRingLegal.setMeter {s : State} (hs : MetersAndRingLegal s) (m : Fin 16) {x : Meter}
    (hx : MeterLegal x) : MetersAndRingLegal (s.setMeter m x) := by
  refine ⟨fun n => ?_, hs.ring⟩
  rw [State.setMeter_at]
  split
  · exact hx
  · exact hs.meters n

theorem metersAndRing_occur (k : ReportKind) (n : Nat) (s : State) :
    metersAndRing (occur k n s) = metersAndRing s := by
  obtain ⟨_, _, _, h⟩ := occur_frame k n s
  rw [h]
  rfl

theorem metersAndRingLegal_deviceReset (s : State) : MetersAndRingLegal (deviceReset s) := by
  rw [deviceReset_eq]
  exact .of_reset rfl

/-! ### The events on Tail -/

theorem metersAndRing_failReception (c : Counter) (s : State) :
    metersAndRing (failReception c s) = metersAndRing s := by
  obtain ⟨_, _, _, _, _, h⟩ := failReception_frame c s
  rw [h]
  rfl

/-- The capture step stores under the next number if there is room (R83 to R85). -/
theorem metersAndRingLegal_captureCell (v : Verdict) (o : CellOutcome) (h : Header) (buf : List Byte) (s : State)
    (hs : MetersAndRingLegal s) : MetersAndRingLegal (captureCell v o h buf s) := by
  unfold captureCell
  split
  · split
    · rename_i hroom
      have hstored : MetersAndRingLegal { s with
          captures := s.captures ++ [captureRecord v o h buf s], nextCapture := s.nextCapture + 1 } :=
        ⟨hs.meters, hs.ring.store hroom rfl⟩
      exact hstored.congr (metersAndRing_occur _ _ _)
    · exact hs.congr (metersAndRing_occur _ _ _)
  · exact hs

theorem metersAndRingLegal_disposeCell (v : Verdict) (h : Header) (buf : List Byte) (s : State)
    (hs : MetersAndRingLegal s) : MetersAndRingLegal (disposeCell v h buf s) := by
  unfold disposeCell
  dsimp only
  generalize decideOutcome v (countVerdict v h buf s) = o
  obtain ⟨_, _, _, _, _, hcount⟩ := countVerdict_frame v h buf s
  obtain ⟨_, _, _, houtcome⟩ := countOutcome_frame o (countVerdict v h buf s)
  have hcounted : MetersAndRingLegal (countOutcome o (countVerdict v h buf s)) :=
    hs.congr (by rw [houtcome, hcount]; rfl)
  obtain ⟨_, _, _, _, _, _, hclose⟩ := closeCell_frame o (rewritten v.act buf)
    (captureCell v o h buf (countOutcome o (countVerdict v h buf s)))
  exact (metersAndRingLegal_captureCell v o h buf _ hcounted).congr (by rw [hclose]; rfl)

/-- A verdict charges at most one meter (R14, R47). -/
theorem metersAndRingLegal_reachVerdict (r : Reception) (l : Latched) (s : State) (hs : MetersAndRingLegal s) :
    MetersAndRingLegal (reachVerdict r l s).1 := by
  unfold reachVerdict
  split
  · exact hs
  · have hc := formVerdict_classified l r.buf s
    refine ⟨fun m => ?_, ?_⟩
    · refine (hc.meters m : (formVerdict l r.buf s).1.meters[m] = _) ▸ ?_
      split
      · exact (hs.meters m).charged _
      · exact hs.meters m
    · dsimp only
      rw [hc.rest]
      exact hs.ring

theorem metersAndRingLegal_tailEnd (ok : Nat → List Byte → Bool) (s : State) (hs : MetersAndRingLegal s) :
    MetersAndRingLegal (tailEnd ok s) := by
  unfold tailEnd
  split
  · rename_i r _
    split
    · exact hs.congr (metersAndRing_failReception _ s)
    · rename_i l _
      have hk := metersAndRingLegal_reachVerdict r l s hs
      unfold endReception
      dsimp only
      split
      · exact metersAndRingLegal_disposeCell _ _ _ _ hk
      · exact hk.congr (metersAndRing_failReception _ _)
  · exact hs
  · exact hs.congr rfl

theorem metersAndRingLegal_tailHeaderComplete (r : Reception) (s : State) (hs : MetersAndRingLegal s) :
    MetersAndRingLegal (tailHeaderComplete r s) := by
  unfold tailHeaderComplete
  dsimp only
  split
  · exact hs.congr rfl
  · split
    · exact metersAndRingLegal_reachVerdict _ _ _ (hs.congr rfl)
    · exact hs.congr rfl

theorem metersAndRingLegal_tailByte (b : Byte) (s : State) (hs : MetersAndRingLegal s) :
    MetersAndRingLegal (tailByte b s) := by
  unfold tailByte
  split
  · split
    · dsimp only
      split
      · split
        · exact metersAndRingLegal_tailHeaderComplete _ _ (hs.congr rfl)
        · exact hs.congr rfl
      · split
        · exact metersAndRingLegal_reachVerdict _ _ _ (hs.congr rfl)
        · exact hs.congr rfl
    · exact hs
  · exact hs
  · exact hs

/-! ### The transmissions -/

theorem metersAndRingLegal_headTxEnd (e : TxEnd) (s : State) (hs : MetersAndRingLegal s) :
    MetersAndRingLegal (headTxEnd e s) := by
  unfold headTxEnd
  split
  · exact hs
  · rename_i src cell _
    obtain ⟨_, _, _, hc⟩ := recordCut_frame .head e cell s
    have hs' : MetersAndRingLegal { recordCut .head e cell s with headTx := .idle } := hs.congr (by rw [hc]; rfl)
    generalize ({ recordCut .head e cell s with headTx := .idle } : State) = u at hs'
    cases src with
    | urgent =>
      unfold endUrgent
      dsimp only
      split
      · exact hs'.congr rfl
      · exact hs'
    | normal =>
      unfold endNormal
      dsimp only
      split
      · exact hs'.congr rfl
      · exact hs'
    | reply =>
      dsimp only
      obtain ⟨rs, h | h⟩ := endReply_cases u
      · rw [h]
        exact hs'.congr rfl
      · rw [h, ← deviceReset_after]
        exact metersAndRingLegal_deviceReset _
    | report q => exact hs'.congr rfl
    | detached => exact hs'

/-! ### The taking of a request -/

/-- A METER_WRITE that is not refused fills the credit to a burst in range (R54, R55). -/
theorem metersAndRingLegal_answerMeterWrite (args : List Byte) (s : State) (hs : MetersAndRingLegal s) :
    MetersAndRingLegal (answerMeterWrite args s).st := by
  unfold answerMeterWrite
  split
  · exact hs
  · split
    · exact hs
    · split
      · exact hs
      · rename_i hrate hburst
        split
        · exact hs.setMeter _ ⟨le_rfl, by dsimp only; omega, by dsimp only; omega, by dsimp only; omega⟩
        · exact hs

theorem metersAndRingLegal_answerCaptureRelease (args : List Byte) (s : State) (hs : MetersAndRingLegal s) :
    MetersAndRingLegal (answerCaptureRelease args s).st := by
  unfold answerCaptureRelease
  split
  · exact hs
  · rename_i r rest hring
    split
    · have hr := hs.ring
      rw [hring] at hr
      exact ⟨hs.meters, hr.release⟩
    · exact hs

theorem metersAndRing_setSetting (i : SettingItem) (v : Nat) (s : State) :
    metersAndRing (setSetting i v s) = metersAndRing s := by
  cases i with
  | missAction => rw [setSetting, setMissAction_reaches]; rfl
  | _ => rfl

theorem metersAndRing_atEveryPosition {f : Fin 64 → State → State}
    (hf : ∀ i s, ∃ x0 x1, f i s = { s with entries := x0, actions := x1 }) (s : State) :
    metersAndRing (atEveryPosition f s) = metersAndRing s := by
  obtain ⟨_, _, h⟩ := atEveryPosition_frame f hf s
  rw [h]
  rfl

/-- No owning rule but that of METER_WRITE and that of CAPTURE_RELEASE reaches a meter or the ring. -/
theorem metersAndRing_ownerAnswer {k : Kind} (hm : k ≠ .meterWrite) (hc : k ≠ .captureRelease) (args : List Byte)
    (s : State) : metersAndRing (ownerAnswer k args s).st = metersAndRing s := by
  cases k with
  | meterWrite => exact absurd rfl hm
  | captureRelease => exact absurd rfl hc
  | settingWrite =>
    dsimp only [ownerAnswer, answerSettingWrite, refusal]
    iterate 3 (split; · rfl)
    exact metersAndRing_setSetting _ _ s
  | entryWrite =>
    dsimp only [ownerAnswer, answerEntryWrite, refusal]
    iterate 6 (split; · rfl)
    obtain ⟨_, _, h⟩ := writeEntry_frame _ _ s
    rw [h]
    rfl
  | entryRetire =>
    dsimp only [ownerAnswer, answerEntryRetire, refusal]
    split
    · rfl
    · obtain ⟨_, _, h⟩ := retireEntry_frame _ s
      rw [h]
      rfl
  | batchActivate =>
    dsimp only [ownerAnswer, answerBatchActivate, refusal]
    split
    · dsimp only
      exact metersAndRing_atEveryPosition (activateAt_frame _ _) s
    · rfl
  | batchRetire =>
    dsimp only [ownerAnswer, answerBatchRetire, refusal]
    split
    · rfl
    · dsimp only
      exact metersAndRing_atEveryPosition (retireIfIn_frame _) s
  | batchDiscard =>
    dsimp only [ownerAnswer, answerBatchDiscard, refusal]
    split
    · rfl
    · dsimp only
      exact metersAndRing_atEveryPosition (discardIfIn_frame _) s
  | _ =>
    dsimp only [ownerAnswer, answerPing, answerIdentRead, answerAddressAssign, answerSettingRead, answerEntryRead,
      answerActionWrite, answerActionRead, answerActionClear, answerMeterRead, answerBinruleWrite,
      answerBinruleRead, answerBinsRead, answerBinsReadClear, answerBinsClear, answerCaptureFetch,
      answerReportAck, answerStatsRead, answerStatsClear, answerDeviceReset, refusal]
    repeat' split
    all_goals rfl

theorem metersAndRingLegal_ownerAnswer (k : Kind) (args : List Byte) (s : State) (hs : MetersAndRingLegal s) :
    MetersAndRingLegal (ownerAnswer k args s).st := by
  by_cases hm : k = .meterWrite
  · subst hm
    exact metersAndRingLegal_answerMeterWrite args s hs
  · by_cases hc : k = .captureRelease
    · subst hc
      exact metersAndRingLegal_answerCaptureRelease args s hs
    · exact hs.congr (metersAndRing_ownerAnswer hm hc args s)

theorem metersAndRingLegal_keptByTakingParts : KeptByTakingParts MetersAndRingLegal where
  reset s _ := metersAndRingLegal_deviceReset s
  owner := metersAndRingLegal_ownerAnswer
  count _ _ _ hs := hs.congr rfl
  queue _ _ _ hs := hs.congr rfl
  store _ _ hs := hs.congr rfl

/-! ### The events on Head -/

theorem metersAndRingLegal_takePayload (f : Form) (payload : List Byte) (s : State) (hs : MetersAndRingLegal s) :
    MetersAndRingLegal (takePayload f payload s) := by
  unfold takePayload
  split
  · exact metersAndRingLegal_keptByTakingParts.take f _ _ _ s hs
  · exact hs.congr rfl

theorem metersAndRing_joinDownstream (c : Cell) (s : State) :
    metersAndRing (joinDownstream c s) = metersAndRing s := by
  obtain ⟨_, _, h⟩ := joinDownstream_frame c s
  rw [h]
  rfl

theorem metersAndRingLegal_acceptDownstream (cell : Cell) (s : State) (hs : MetersAndRingLegal s) :
    MetersAndRingLegal (acceptDownstream cell s) := by
  unfold acceptDownstream
  dsimp only
  split
  · exact metersAndRingLegal_takePayload _ _ _ (hs.congr rfl)
  · exact hs.congr (metersAndRing_joinDownstream _ _)
  · exact metersAndRingLegal_takePayload _ _ _ (hs.congr (metersAndRing_joinDownstream _ _))

theorem metersAndRingLegal_headEnd (ok : Nat → List Byte → Bool) (s : State) (hs : MetersAndRingLegal s) :
    MetersAndRingLegal (headEnd ok s) := by
  unfold headEnd
  split
  · dsimp only
    split
    · exact hs.congr rfl
    · split
      · exact metersAndRingLegal_acceptDownstream _ _ (hs.congr rfl)
      · exact hs.congr rfl
  · exact hs
  · exact hs.congr rfl

/-! ### Every event -/

theorem metersAndRingLegal_keptByPortParts : KeptByPortParts MetersAndRingLegal where
  port p x s hs := hs.congr (by cases p <;> rfl)
  start p s hs := by
    cases p with
    | head =>
      obtain ⟨_, h⟩ := headStartOfCell_frame s
      exact hs.congr (by rw [startEvent, h]; rfl)
    | tail =>
      obtain ⟨_, _, _, _, _, h⟩ := tailStartOfCell_frame s
      exact hs.congr (by rw [startEvent, h]; rfl)
  byte p b s hs := by
    cases p with
    | head =>
      obtain ⟨_, _, h⟩ := headByte_frame b s
      exact hs.congr (by rw [byteEvent, h]; rfl)
    | tail => exact metersAndRingLegal_tailByte b s hs
  stop p s hs := by
    cases p with
    | head => exact metersAndRingLegal_headEnd _ s hs
    | tail => exact metersAndRingLegal_tailEnd _ s hs
  fail p s hs := by
    cases p with
    | head => exact metersAndRingLegal_headEnd (fun _ _ => false) s hs
    | tail => exact metersAndRingLegal_tailEnd (fun _ _ => false) s hs
  abort p s hs := by
    cases p with
    | head =>
      obtain ⟨_, _, h⟩ := headAbort_frame s
      exact hs.congr (by rw [abortEvent, h]; rfl)
    | tail =>
      obtain ⟨_, _, _, _, _, h⟩ := tailAbort_frame s
      exact hs.congr (by rw [abortEvent, h]; rfl)
  txAbort p s hs := by
    cases p with
    | head => exact metersAndRingLegal_headTxEnd _ s hs
    | tail =>
      obtain ⟨_, _, _, _, _, h⟩ := tailTxEnd_frame .abort s
      exact hs.congr (by rw [abortTransmission, h]; rfl)
  link n s hs := hs.congr (metersAndRing_occur _ n s)

theorem metersAndRingLegal_keptByEvents : KeptByEvents MetersAndRingLegal where
  pending _ _ hs := hs.congr rfl
  powerOn _ _ := .of_reset rfl
  hold _ hs := hs.congr rfl
  freeIndex _ _ hs := hs.congr rfl
  grant s hs := by
    obtain ⟨_, _, _, _, _, _, _, h⟩ := headGrant_frame s
    exact hs.congr (by rw [h]; rfl)
  start s hs := by
    obtain ⟨_, h⟩ := tailStart_frame s
    exact hs.congr (by rw [h]; rfl)
  headTx := metersAndRingLegal_headTxEnd
  tailTx e s hs := by
    obtain ⟨_, _, _, _, _, h⟩ := tailTxEnd_frame e s
    exact hs.congr (by rw [h]; rfl)
  symbol := metersAndRingLegal_keptByPortParts.receive
  detect := metersAndRingLegal_keptByPortParts.detect
  lose := metersAndRingLegal_keptByPortParts.lose
  take := metersAndRingLegal_keptByTakingParts.take
  refill s hs := by
    unfold expireRefill
    split
    · exact ⟨fun m => refillAll_meters s m ▸ (hs.meters m).refilled, hs.ring⟩
    · exact hs
  expire q s hs := by
    obtain ⟨_, _, h⟩ := expireSequence_frame q s
    exact hs.congr (by rw [h]; rfl)
  advance _ hs := hs.congr rfl

/-- Settles O55: each kind of event keeps every meter and the ring legal, and so does every step. -/
theorem stepKeepsMetersBoundedAndTheRingOrdered : Obligations.StepKeepsMetersBoundedAndTheRingOrdered := by
  intro s t hs he
  rw [← metersAndRingLegal_iff] at hs ⊢
  exact metersAndRingLegal_keptByEvents.step s t hs he

end Sys2Proof.Machine
end

section
/-! PROOF. O21 and O40: METER_WRITE and the refill. -/

namespace Sys2Proof.Machine

/-! ### METER_WRITE -/

@[simp] theorem policyOf_code (p : Policy) : policyOf p.code = some p := by
  cases p <;> rfl

theorem policyOf_isSome_iff (b : Byte) : (policyOf b).isSome = true ↔ b.toNat ≤ 2 := by
  revert b
  decide

theorem yesNo_isSome_iff (b : Byte) : (yesNo b).isSome = true ↔ b.toNat ≤ 1 := by
  revert b
  decide

/-- A yes/no field is 1 for yes (R211). -/
theorem yesNo_eq_some {b : Byte} (h : b = 0 ∨ b = 1) : yesNo b = some (decide (b = 1)) := by
  rcases h with rfl | rfl <;> rfl

/-- A METER_WRITE that passes the checks sets the meter, and answers with what stood before (R54, R55). -/
theorem answerMeterWrite_inRange {args : List Byte} {m : Fin 16} {p : Policy} (hm : argNat args 0 = m.val)
    (hrate : argWord args 1 ≤ 4095) (hlow : 64 ≤ argWord args 3) (hhigh : argWord args 3 ≤ 16383)
    (hp : p.code = argByte args 5) (hclear : argByte args 6 = 0 ∨ argByte args 6 = 1) (s : State) :
    answerMeterWrite args s =
      ⟨s.setMeter m ⟨argWord args 1, argWord args 3, argWord args 3, p, false,
          if argByte args 6 = 1 then 0 else s.meters[m].conform,
          if argByte args 6 = 1 then 0 else s.meters[m].exceed⟩, .ok,
        bytes16 s.meters[m].credit ++ [flagByte s.meters[m].inExcess] ++ bytes32 s.meters[m].conform ++
          bytes32 s.meters[m].exceed⟩ := by
  unfold answerMeterWrite
  simp only [position_eq_some hm, Nat.not_lt.2 hrate, Nat.not_lt.2 hlow, Nat.not_lt.2 hhigh, ← hp, policyOf_code,
    yesNo_eq_some hclear, decide_eq_true_eq, or_self, if_false]

/-- The first check: the position (R54). -/
theorem answerMeterWrite_badIndex {args : List Byte} (h : 15 < argNat args 0) (s : State) :
    answerMeterWrite args s = refusal .badIndex s := by
  unfold answerMeterWrite
  rw [position_eq_none (n := 16) h]

/-- The second check: the other fields (R54). -/
theorem answerMeterWrite_badValue {args : List Byte} (h0 : argNat args 0 ≤ 15)
    (h : 4095 < argWord args 1 ∨ argWord args 3 < 64 ∨ 16383 < argWord args 3 ∨ 2 < argNat args 5 ∨
      1 < argNat args 6) (s : State) : answerMeterWrite args s = refusal .badValue s := by
  obtain ⟨m, hm⟩ := Option.isSome_iff_exists.1 ((position_isSome_iff 16 _).2 (Nat.lt_succ_of_le h0))
  unfold answerMeterWrite
  rw [hm]
  dsimp only
  split
  · rfl
  · split
    · rfl
    · split
      · rename_i hp hclear
        have hp' : argNat args 5 ≤ 2 := (policyOf_isSome_iff _).1 (Option.isSome_of_mem hp)
        have hclear' : argNat args 6 ≤ 1 := (yesNo_isSome_iff _).1 (Option.isSome_of_mem hclear)
        omega
      · rfl

/-- An accepted METER_WRITE with all its arguments is answered as the meters answer. -/
theorem exec_meterWrite {tag : Byte} {args results : List Byte} {s u : State} {st : Status} (hs : Accepts 15 tag s)
    (hl : 7 ≤ args.length) (ha : answerMeterWrite args s = ⟨u, st, results⟩) :
    exec (.meterWrite .addressed tag args) s = .next (settle (answered 15 tag st results u)) :=
  exec_answered (k := .meterWrite) hs (by decide) (Nat.add_le_add_right hl 2) ha

/-- Settles O21: the meter that the arguments carry, or the two refusals in the order of R54. -/
theorem meterWriteSetsTheMeter : Obligations.MeterWriteSetsTheMeter := by
  intro tag pos r1 r0 b1 b0 pol clr more s rate burst args hs hrate hburst hargs
  obtain ⟨h0, h1, h3, h5, h6, hl⟩ : argNat args 0 = pos.toNat ∧ argWord args 1 = rate ∧ argWord args 3 = burst ∧
      argByte args 5 = pol ∧ argByte args 6 = clr ∧ 7 ≤ args.length := by
    subst hrate hburst hargs
    exact ⟨rfl, rfl, rfl, rfl, rfl, Nat.le_add_left _ _⟩
  clear hargs hrate hburst
  subst h1 h3 h5 h6
  rw [← h0]
  refine ⟨fun m p x hpos hp hx hrate hlow hhigh hclr => ?_, fun h => ?_, fun hpos h => ?_⟩
  · subst hx
    exact exec_meterWrite hs hl (answerMeterWrite_inRange hpos hrate hlow hhigh hp hclr s)
  · exact exec_meterWrite hs hl (answerMeterWrite_badIndex h s)
  · exact exec_meterWrite hs hl (answerMeterWrite_badValue hpos h s)

/-! ### The refill -/

/-- REFILL_EXPIRY is the refill that is due (R46). -/
theorem exec_refillExpiry {s : State} (h : s.resetHeld = false) :
    exec .refillExpiry s = .next (expireRefill s) := by
  change Host.Outcome.next (unlessHeld expireRefill s) = _
  rw [unlessHeld, if_neg (by simp [h])]

theorem expireRefill_due {s : State} (h : s.refillLeft = 0) : expireRefill s = refillAll s := if_pos h

theorem expireRefill_notDue {s : State} (h : s.refillLeft ≠ 0) : expireRefill s = s := if_neg h

/-- Settles O40: the refill of every meter, and the next interval. -/
theorem refillRaisesEveryCredit : Obligations.RefillRaisesEveryCredit := by
  intro s hrun hleft
  refine ⟨refillAll s, ?_, refillAll_meters s, rfl⟩
  rw [exec_refillExpiry hrun, expireRefill_due hleft]

end Sys2Proof.Machine
end

section
/-! PROOF. O12: SETTING_WRITE of items 1 to 7. miss_action stands with O13. -/

namespace Sys2Proof.Machine

/-- Only a miss_action names a record (R170). -/
theorem namesUndefined_other {i : SettingItem} (h : i ≠ .missAction) (v : Nat) (s : State) :
    namesUndefined i v s = false := by
  cases i with
  | missAction => exact absurd rfl h
  | _ => rfl

section
variable {tag item hi lo : Byte} {i : SettingItem} {s : State}

/-- A SETTING_WRITE of a value in the range of its item sets it, and answers with the value before (R171). -/
theorem exec_settingWrite_inRange (hs : Accepts 4 tag s) (hitem : settingItemOf item.toNat = some i)
    (hi' : i ≠ .missAction) (hv : settingInRange i (hi.toNat * 256 + lo.toNat) = true) (more : List Byte) :
    exec (.settingWrite .addressed tag (item :: hi :: lo :: more)) s = .next (settle (answered 4 tag .ok
      (bytes16 (settingCode i s.settings)) (setSetting i (hi.toNat * 256 + lo.toNat) s))) := by
  have ha : answerSettingWrite (item :: hi :: lo :: more) s =
      ⟨setSetting i (hi.toNat * 256 + lo.toNat) s, .ok, bytes16 (settingCode i s.settings)⟩ := by
    have hw : argWord (item :: hi :: lo :: more) 1 = hi.toNat * 256 + lo.toNat := rfl
    simp [answerSettingWrite, hitem, hw, hv, namesUndefined_other hi']
  exact exec_answered (k := .settingWrite) hs (by decide) (Nat.le_add_left _ _) ha

/-- A SETTING_WRITE of a value out of the range of its item is refused (R170, second check). -/
theorem exec_settingWrite_badValue (hs : Accepts 4 tag s) (hitem : settingItemOf item.toNat = some i)
    (hv : settingInRange i (hi.toNat * 256 + lo.toNat) = false) (more : List Byte) :
    exec (.settingWrite .addressed tag (item :: hi :: lo :: more)) s =
      .next (settle (answered 4 tag .badValue [] s)) := by
  have ha : answerSettingWrite (item :: hi :: lo :: more) s = refusal .badValue s := by
    have hw : argWord (item :: hi :: lo :: more) 1 = hi.toNat * 256 + lo.toNat := rfl
    simp [answerSettingWrite, hitem, hw, hv]
  exact exec_answered (k := .settingWrite) hs (by decide) (Nat.le_add_left _ _) ha

/-- A SETTING_WRITE of an item past the last is refused (R170, first check). -/
theorem exec_settingWrite_badIndex (hs : Accepts 4 tag s) (h : 8 ≤ item.toNat) (more : List Byte) :
    exec (.settingWrite .addressed tag (item :: hi :: lo :: more)) s =
      .next (settle (answered 4 tag .badIndex [] s)) := by
  have ha : answerSettingWrite (item :: hi :: lo :: more) s = refusal .badIndex s := by
    simp only [answerSettingWrite, argNat_zero_cons, settingItemOf_of_le h]
  exact exec_answered (k := .settingWrite) hs (by decide) (Nat.le_add_left _ _) ha

end

/-- A byte as two bytes (R216). -/
theorem bytes16_toNat (b : Byte) : bytes16 b.toNat = [0, b] := by
  have h : b.toNat / 256 = 0 := Nat.div_eq_of_lt b.isLt
  simp [bytes16, h, byteOf]

/-- Settles O12: one line per item, and the two refusals. -/
theorem settingWriteSetsOneSetting : Obligations.SettingWriteSetsOneSetting := by
  intro tag item hi lo more s v hs hv
  subst hv
  refine ⟨fun h hr => ?_, fun h hr => ?_, fun h h1 h2 => ?_, fun h hr => ?_, fun h h1 h2 => ?_, fun h h0 => ?_,
    fun h h1 h2 => ?_, fun h => exec_settingWrite_badIndex hs h more, fun h => ?_⟩
  · subst h
    exact exec_settingWrite_inRange hs (i := .probe0Offset) rfl (by decide) (by simpa [settingInRange] using hr) more
  · subst h
    exact exec_settingWrite_inRange hs (i := .probe1Offset) rfl (by decide) (by simpa [settingInRange] using hr) more
  · subst h
    exact exec_settingWrite_inRange hs (i := .normalLimit) rfl (by decide) (by simp [settingInRange, h1, h2]) more
  · subst h
    exact exec_settingWrite_inRange hs (i := .refillInterval) rfl (by decide)
      (by simpa [settingInRange, or_assoc] using hr) more
  · subst h
    exact exec_settingWrite_inRange hs (i := .reportTimeout) rfl (by decide) (by simp [settingInRange, h1, h2]) more
  · subst h h0
    have hv : (0 : Byte).toNat * 256 + lo.toNat = lo.toNat := by simp
    have hset : setSetting .reportEnable ((0 : Byte).toNat * 256 + lo.toNat) s =
        { s with settings := { s.settings with reportEnable := lo } } := by
      simp [setSetting, byteOf]
    have hr : settingInRange .reportEnable ((0 : Byte).toNat * 256 + lo.toNat) = true := by
      rw [hv]
      exact decide_eq_true (Nat.le_of_lt_succ lo.isLt)
    rw [← bytes16_toNat, ← hset]
    exact exec_settingWrite_inRange hs (i := .reportEnable) rfl (by decide) hr more
  · subst h
    exact exec_settingWrite_inRange hs (i := .starvationLimit) rfl (by decide) (by simp [settingInRange, h1, h2]) more
  · rcases h with ⟨rfl, h1, h2⟩ | ⟨rfl | rfl, h⟩ | ⟨rfl, h⟩ | ⟨rfl, h⟩ | ⟨rfl | rfl, h⟩ | ⟨rfl, h⟩
    · exact exec_settingWrite_badValue hs (i := .missAction) rfl (by simp [settingInRange, h1, h2]) more
    · exact exec_settingWrite_badValue hs (i := .probe0Offset) rfl (by simp [settingInRange, h]) more
    · exact exec_settingWrite_badValue hs (i := .probe1Offset) rfl (by simp [settingInRange, h]) more
    · exact exec_settingWrite_badValue hs (i := .normalLimit) rfl (by simp [settingInRange]; omega) more
    · exact exec_settingWrite_badValue hs (i := .refillInterval) rfl (by simpa [settingInRange, and_assoc] using h) more
    · exact exec_settingWrite_badValue hs (i := .reportTimeout) rfl (by simp [settingInRange]; omega) more
    · exact exec_settingWrite_badValue hs (i := .starvationLimit) rfl (by simp [settingInRange]; omega) more
    · have hpos : 0 < hi.toNat := Nat.pos_of_ne_zero fun h0 => h (BitVec.eq_of_toNat_eq h0)
      exact exec_settingWrite_badValue hs (i := .reportEnable) rfl (by simp [settingInRange]; omega) more

end Sys2Proof.Machine
end

section
/-! PROOF. O41: the tick of the line time, and the expiries it finds undone. -/

namespace Sys2Proof.Machine

/-- LINE_TIME_TICK carries out what is undone and steps the line time (R208; log 6). -/
theorem exec_lineTimeTick {s : State} (h : s.resetHeld = false) :
    exec .lineTimeTick s = .next (advanceTime (expireOverdue (expireRefill s))) := by
  change Host.Outcome.next (unlessHeld _ s) = _
  rw [unlessHeld, if_neg (by simp [h])]

theorem exec_reportTimerExpiry {s : State} (h : s.resetHeld = false) (q : Byte) :
    exec (.reportTimerExpiry q) s = .next (settle (expireSequence q s)) := by
  change Host.Outcome.next (unlessHeld _ s) = _
  rw [unlessHeld, if_neg (by simp [h])]

/-- What the close of a report timer's expiry leaves of the time base (R143). -/
theorem settle_expireSequence_keeps (q : Byte) (s : State) :
    (settle (expireSequence q s)).resetHeld = s.resetHeld ∧ (settle (expireSequence q s)).lineTime = s.lineTime ∧
      (settle (expireSequence q s)).refillLeft = s.refillLeft := by
  obtain ⟨_, _, _, _, _, _, _, _, hsettle⟩ := settle_frame (expireSequence q s)
  obtain ⟨_, _, hexpire⟩ := expireSequence_frame q s
  rw [hsettle, hexpire]
  exact ⟨rfl, rfl, rfl⟩

/-- The expiries of a list of sequences, each with its close. -/
def expireEach (l : List Byte) (s : State) : State := l.foldl (fun t q => settle (expireSequence q t)) s

theorem expireOverdue_eq (s : State) : expireOverdue s = expireEach (overdueSequences s) s := rfl

theorem expireEach_keeps (l : List Byte) (s : State) :
    (expireEach l s).lineTime = s.lineTime ∧ (expireEach l s).refillLeft = s.refillLeft := by
  induction l generalizing s with
  | nil => exact ⟨rfl, rfl⟩
  | cons q l ih =>
    obtain ⟨_, hline, hleft⟩ := settle_expireSequence_keeps q s
    obtain ⟨ihline, ihleft⟩ := ih (settle (expireSequence q s))
    exact ⟨ihline.trans hline, ihleft.trans hleft⟩

/-- The expiries are those of as many REPORT_TIMER_EXPIRY commands (R143). -/
theorem runs_expireEach (l : List Byte) {s : State} (h : s.resetHeld = false) :
    Runs (l.map .reportTimerExpiry) s (expireEach l s) := by
  induction l generalizing s with
  | nil => rfl
  | cons q l ih =>
    obtain ⟨hrun, _, _⟩ := settle_expireSequence_keeps q s
    exact ⟨_, exec_reportTimerExpiry h q, ih (hrun.trans h)⟩

theorem expireOverdue_nothing {s : State} (h : ∀ r ∈ s.sent, r.cond ≠ .timing s.lineTime) : expireOverdue s = s := by
  have hnone : overdueSequences s = [] := by
    rw [overdueSequences, List.map_eq_nil_iff, List.filter_eq_nil_iff]
    intro r hr
    simpa [SentReport.expires] using h r hr
  rw [expireOverdue_eq, hnone]
  rfl

/-- What the refill that a tick finds undone leaves (R45, R46). -/
theorem expireRefill_keeps (s : State) :
    (expireRefill s).resetHeld = s.resetHeld ∧ (expireRefill s).lineTime = s.lineTime ∧
      (expireRefill s).sent = s.sent ∧
      (expireRefill s).refillLeft = if s.refillLeft = 0 then s.settings.refillInterval else s.refillLeft := by
  unfold expireRefill
  split <;> exact ⟨rfl, rfl, rfl, rfl⟩

/-- Settles O41: the tick with nothing undone, and the run of expiries that a tick stands for. -/
theorem lineTimeStepsEveryMicrosecond : Obligations.LineTimeStepsEveryMicrosecond := by
  intro s hrun
  refine ⟨fun hleft hnone => ?_, ?_⟩
  · rw [exec_lineTimeTick hrun, expireRefill_notDue hleft, expireOverdue_nothing hnone]
    rfl
  · obtain ⟨hheld, hline, hsent, hleft⟩ := expireRefill_keeps s
    obtain ⟨hline', hleft'⟩ := expireEach_keeps (overdueSequences (expireRefill s)) (expireRefill s)
    refine ⟨_, expireRefill s, expireOverdue (expireRefill s), exec_lineTimeTick hrun, ?_, exec_refillExpiry hrun,
      rfl, ?_⟩
    · rw [expireOverdue_eq, advanceTime, hline', hleft', hline, hleft]
    · have hseq : (s.sent.filter fun r => r.cond == .timing s.lineTime).map (fun r => Instr.reportTimerExpiry r.seq) =
          (overdueSequences (expireRefill s)).map Instr.reportTimerExpiry := by
        rw [overdueSequences, hsent, hline, List.map_map]
        rfl
      rw [hseq]
      exact runs_expireEach _ (hheld.trans hrun)

end Sys2Proof.Machine
end

section
/-! PROOF. O31: bin counting, one lemma per step of R63, and `countCell` as one equation per outcome. -/

namespace Sys2Proof.Machine

/-! ### The four steps -/

/-- A saturating count stops at its maximum (R61). -/
theorem toNat_satAdd (w : Word32) (n : Nat) : (satAdd w n).toNat = min (w.toNat + n) 4294967295 := by
  unfold satAdd
  split
  · rename_i hfits
    rw [BitVec.toNat_add, BitVec.toNat_ofNat]
    omega
  · rename_i hpast
    exact (min_eq_right (Nat.le_of_not_le hpast)).symm

theorem payloadByteAt_of_lt {offset length : Nat} (h : offset < length) (buf : List Byte) :
    payloadByteAt offset length buf = some (argByte buf (6 + offset)) := if_pos h

theorem payloadByteAt_of_le {offset length : Nat} (h : length ≤ offset) (buf : List Byte) :
    payloadByteAt offset length buf = none := if_neg (Nat.not_lt.2 h)

/-- The first step: the gate test, said in the terms of R64. -/
theorem gatePasses_eq_false_iff (c : BinConfig) (h : Header) (buf : List Byte) :
    gatePasses c h.length buf = false ↔ gateStops c h buf := by
  unfold gatePasses gateStops
  rcases Nat.lt_or_ge c.gateOffset h.length with hbyte | hbyte
  · rw [payloadByteAt_of_lt hbyte]
    cases c.gate <;> simp [Nat.not_le.2 hbyte]
  · rw [payloadByteAt_of_le hbyte]
    cases c.gate <;> simp [hbyte]

theorem gatePasses_of_not_stops {c : BinConfig} {h : Header} {buf : List Byte} (hg : ¬gateStops c h buf) :
    gatePasses c h.length buf = true :=
  Bool.eq_true_of_not_eq_false (mt (gatePasses_eq_false_iff c h buf).1 hg)

/-- The second step: the source value, said in the terms of R65. -/
theorem sourceValue_eq_some_iff (c : BinConfig) (h : Header) (buf : List Byte) (v : Nat) :
    sourceValue c h buf = some v ↔ sourceGives c h buf v := by
  unfold sourceValue sourceGives
  cases c.source with
  | payloadByte =>
    rcases Nat.lt_or_ge c.sourceOffset h.length with hbyte | hbyte
    · simp [payloadByteAt_of_lt hbyte, hbyte, argNat, eq_comm]
    · simp [payloadByteAt_of_le hbyte, Nat.not_lt.2 hbyte]
  | payloadWord =>
    have hnext : 6 + c.sourceOffset + 1 = 7 + c.sourceOffset := by omega
    simp [argWord, hnext, eq_comm]
  | channel => simp [eq_comm]
  | src => simp [eq_comm]
  | length => simp [eq_comm]

theorem sourceValue_eq_none_iff (c : BinConfig) (h : Header) (buf : List Byte) :
    sourceValue c h buf = none ↔ ∀ v, ¬sourceGives c h buf v := by
  simp only [Option.eq_none_iff_forall_ne_some, ne_eq, sourceValue_eq_some_iff]

/-- The third step fits the value to the width (R66). -/
theorem fitValue_eq (c : BinConfig) (v : Nat) : fitValue c v =
    if c.mode = .wrap then v / 2 ^ c.shift % 2 ^ c.width else min (v / 2 ^ c.shift) (2 ^ c.width - 1) := by
  unfold fitValue
  cases c.mode <;> rfl

theorem fitValue_lt (c : BinConfig) (v : Nat) : fitValue c v < 2 ^ c.width := by
  have hpos : 0 < 2 ^ c.width := Nat.two_pow_pos _
  unfold fitValue
  cases c.mode with
  | wrap => exact Nat.mod_lt _ hpos
  | clamp => exact lt_of_le_of_lt (min_le_right _ _) (Nat.sub_lt hpos Nat.one_pos)

theorem fitValue_le_255 {c : BinConfig} (hw : c.width ≤ 8) (v : Nat) : fitValue c v ≤ 255 :=
  Nat.le_of_lt_succ ((fitValue_lt c v).trans_le (Nat.pow_le_pow_right Nat.two_pos hw))

/-- A base below a multiple of the range, with its low part replaced, stays below that multiple. -/
theorem sub_mod_add_lt {base size v limit : Nat} (hdvd : size ∣ limit) (hbase : base < limit) (hv : v < size) :
    base - base % size + v < limit := by
  obtain ⟨k, rfl⟩ := hdvd
  have hblock : base / size < k := Nat.div_lt_of_lt_mul hbase
  calc base - base % size + v = size * (base / size) + v := by rw [Nat.mul_div_self_eq_mod_sub_self]
    _ < size * (base / size) + size := Nat.add_lt_add_left hv _
    _ = size * (base / size + 1) := (Nat.mul_succ _ _).symm
    _ ≤ size * k := Nat.mul_le_mul_left _ hblock

/-- No value carries the index out of the table (R67). -/
theorem binIndex_lt {c : BinConfig} (hbase : c.base ≤ 1023) (hw : c.width ≤ 8) (v : Nat) : binIndex c v < 1024 :=
  sub_mod_add_lt (Nat.pow_dvd_pow 2 (hw.trans (by decide) : c.width ≤ 10)) (Nat.lt_succ_of_le hbase) (fitValue_lt c v)

/-- The amount that the fourth step adds (R68). -/
theorem binAmount_eq (c : BinConfig) (length : Nat) : binAmount c length =
    if c.increment = .one then 1 else 6 + length + if 0 < length then 2 else 0 := by
  unfold binAmount
  cases c.increment <;> rfl

theorem State.bin_of_lt {b : Nat} (hb : b < 1024) (s : State) : s.bin b = s.bins[b] := by
  simp [State.bin, hb]

theorem State.setBin_of_lt {b : Nat} (hb : b < 1024) (w : Word32) (s : State) :
    s.setBin b w = { s with bins := s.bins.set b w hb } := by
  simp [State.setBin, Vector.setIfInBounds, Vector.set, Array.setIfInBounds, hb]

/-- The fourth step: the addition to a bin of the table (R68). -/
theorem addToBin_of_lt {b : Nat} (hb : b < 1024) (amount : Nat) {s s1 : State}
    (h1 : s1 = { s with bins := s.bins.set b (satAdd s.bins[b] amount) hb }) : addToBin b amount s =
      if s.bins[b] ≠ countMax ∧ s1.bins[b] = countMax then occur .binSaturated b s1 else s1 := by
  unfold addToBin
  dsimp only
  rw [State.bin_of_lt hb, State.setBin_of_lt hb, ← h1, State.bin_of_lt hb]

/-! ### The outcomes of counting -/

theorem countCell_disabled {c : BinConfig} (he : c.enabled = false) (n : Fin 8) (h : Header) (buf : List Byte)
    (s : State) : countCell n c h buf s = s := if_pos he

/-- The gate stops the cell before the source is looked at (R64). -/
theorem countCell_gated {c : BinConfig} {h : Header} {buf : List Byte} (he : c.enabled = true)
    (hg : gateStops c h buf) (n : Fin 8) (s : State) : countCell n c h buf s =
      s.setRule n { s.rules[n] with gatedOut := satAdd s.rules[n].gatedOut 1 } := by
  unfold countCell
  simp only [he, (gatePasses_eq_false_iff c h buf).2 hg, Bool.true_eq_false, if_false, if_true]

/-- A cell that passes the gate and has no source value (R65). -/
theorem countCell_sourceAbsent {c : BinConfig} {h : Header} {buf : List Byte} (he : c.enabled = true)
    (hg : ¬gateStops c h buf) (hsrc : ∀ v, ¬sourceGives c h buf v) (n : Fin 8) (s : State) :
    countCell n c h buf s =
      s.setRule n { s.rules[n] with sourceAbsent := satAdd s.rules[n].sourceAbsent 1 } := by
  unfold countCell
  simp only [he, gatePasses_of_not_stops hg, (sourceValue_eq_none_iff c h buf).2 hsrc, Bool.true_eq_false, if_false]

/-- A cell that is counted into its bin (R68). -/
theorem countCell_counted {c : BinConfig} {h : Header} {buf : List Byte} {v : Nat} (he : c.enabled = true)
    (hg : ¬gateStops c h buf) (hsrc : sourceGives c h buf v) (n : Fin 8) (s : State) :
    countCell n c h buf s = addToBin (binIndex c v) (binAmount c h.length)
      (s.setRule n { s.rules[n] with counted := satAdd s.rules[n].counted 1 }) := by
  unfold countCell
  simp only [he, gatePasses_of_not_stops hg, (sourceValue_eq_some_iff c h buf v).2 hsrc, Bool.true_eq_false, if_false]

/-- Settles O31: the counts that stop at their maximum, the three outcomes without a bin, and the counted cell. -/
theorem binCountingFollowsTheRuleCopy : Obligations.BinCountingFollowsTheRuleCopy := by
  refine ⟨toNat_satAdd, fun n c h buf s => ⟨fun he => ?_, fun he hg => ?_, fun he hg hsrc => ?_⟩, ?_⟩
  · exact countCell_disabled he n h buf s
  · exact countCell_gated he hg n s
  · exact countCell_sourceAbsent he hg hsrc n s
  · intro n c h buf s v value index amount he hg hsrc hvalue hindex hbase hw hamount
    obtain rfl : value = fitValue c v := hvalue.trans (fitValue_eq c v).symm
    obtain rfl : index = binIndex c v := hindex
    obtain rfl : amount = binAmount c h.length := hamount.trans (binAmount_eq c h.length).symm
    refine ⟨binIndex_lt hbase hw v, fitValue_le_255 hw v, fun s1 hs1 => ?_⟩
    rw [countCell_counted he hg hsrc]
    exact addToBin_of_lt (binIndex_lt hbase hw v) _ hs1

end Sys2Proof.Machine
end

section
/-! PROOF. O22: BINRULE_WRITE. What the arguments carry is said once by `RuleCarried`. -/

namespace Sys2Proof.Machine

/-! ### The codes of a configuration -/

@[simp] theorem sourceOf_code (x : Source) : sourceOf x.code = some x := by
  cases x <;> rfl

theorem sourceOf_isSome_iff (b : Byte) : (sourceOf b).isSome = true ↔ b.toNat ≤ 4 := by
  revert b
  decide

@[simp] theorem rangeModeOf_code (m : RangeMode) : rangeModeOf m.code = some m := by
  cases m <;> rfl

theorem rangeModeOf_isSome_iff (b : Byte) : (rangeModeOf b).isSome = true ↔ b.toNat ≤ 1 := by
  revert b
  decide

@[simp] theorem gateOf_code (g : Gate) : gateOf g.code = some g := by
  cases g <;> rfl

theorem gateOf_isSome_iff (b : Byte) : (gateOf b).isSome = true ↔ b.toNat ≤ 2 := by
  revert b
  decide

@[simp] theorem incrementOf_code (i : Increment) : incrementOf i.code = some i := by
  cases i <;> rfl

theorem incrementOf_isSome_iff (b : Byte) : (incrementOf b).isSome = true ↔ b.toNat ≤ 1 := by
  revert b
  decide

@[simp] theorem yesNo_flagByte (b : Bool) : yesNo (flagByte b) = some b := by
  cases b <;> rfl

/-! ### The configuration that the arguments carry -/

/-- R69, R216: the arguments of a BINRULE_WRITE, from enabled to increment, are the fields of `c`. -/
structure RuleCarried (args : List Byte) (c : BinConfig) : Prop where
  enabled : argByte args 1 = flagByte c.enabled
  base : c.base = argWord args 2
  width : c.width = argNat args 4
  source : c.source.code = argByte args 5
  sourceOffset : c.sourceOffset = argNat args 6
  shift : c.shift = argNat args 7
  mode : c.mode.code = argByte args 8
  gate : c.gate.code = argByte args 9
  gateOffset : c.gateOffset = argNat args 10
  gateBit : c.gateBit = argNat args 11
  increment : c.increment.code = argByte args 12

/-- R61: the fields that are numbers are in their ranges. -/
structure BinConfig.InRange (c : BinConfig) : Prop where
  base : c.base ≤ 1023
  width : c.width ≤ 8
  sourceOffset : c.sourceOffset ≤ 47
  shift : c.shift ≤ 15
  gateOffset : c.gateOffset ≤ 47
  gateBit : c.gateBit ≤ 7

/-- The configuration the arguments carry is the one that BINRULE_WRITE reads from them. -/
theorem RuleCarried.binConfigOfArgs {args : List Byte} {c : BinConfig} (h : RuleCarried args c) (hr : c.InRange) :
    binConfigOfArgs args = some c := by
  obtain ⟨hbase, hwidth, hsourceOffset, hshift, hgateOffset, hgateBit⟩ := hr
  unfold Machine.binConfigOfArgs
  rw [h.enabled, ← h.source, ← h.mode, ← h.gate, ← h.increment, yesNo_flagByte, sourceOf_code, rangeModeOf_code,
    gateOf_code, incrementOf_code]
  dsimp only
  rw [← h.base, ← h.width, ← h.sourceOffset, ← h.shift, ← h.gateOffset, ← h.gateBit, if_neg (by omega)]

/-- A configuration is read from the arguments when every field is in its values (R69). -/
theorem binConfigOfArgs_inRange {args : List Byte} {c : BinConfig} (h : binConfigOfArgs args = some c) :
    (argNat args 1 ≤ 1 ∧ argNat args 5 ≤ 4 ∧ argNat args 8 ≤ 1 ∧ argNat args 9 ≤ 2 ∧ argNat args 12 ≤ 1) ∧
      argWord args 2 ≤ 1023 ∧ argNat args 4 ≤ 8 ∧ argNat args 6 ≤ 47 ∧ argNat args 7 ≤ 15 ∧
      argNat args 10 ≤ 47 ∧ argNat args 11 ≤ 7 := by
  unfold binConfigOfArgs at h
  split at h
  · rename_i hen hsource hmode hgate hinc
    split at h
    · cases h
    · exact ⟨⟨(yesNo_isSome_iff _).1 (Option.isSome_of_mem hen),
        (sourceOf_isSome_iff _).1 (Option.isSome_of_mem hsource),
        (rangeModeOf_isSome_iff _).1 (Option.isSome_of_mem hmode),
        (gateOf_isSome_iff _).1 (Option.isSome_of_mem hgate),
        (incrementOf_isSome_iff _).1 (Option.isSome_of_mem hinc)⟩, by omega⟩
  · cases h

/-! ### BINRULE_WRITE -/

/-- A BINRULE_WRITE that passes the checks sets the rule, and answers with what stood before (R70). -/
theorem answerBinruleWrite_carried {args : List Byte} {n : Fin 8} {c : BinConfig} (hn : argNat args 0 = n.val)
    (h : RuleCarried args c) (hr : c.InRange) (hclear : argByte args 13 = 0 ∨ argByte args 13 = 1) (s : State) :
    answerBinruleWrite args s =
      ⟨s.setRule n (if argByte args 13 = 1 then ⟨c, 0, 0, 0⟩
          else ⟨c, s.rules[n].counted, s.rules[n].gatedOut, s.rules[n].sourceAbsent⟩), .ok,
        [flagByte s.rules[n].cfg.enabled] ++ bytes32 s.rules[n].counted ++ bytes32 s.rules[n].gatedOut ++
          bytes32 s.rules[n].sourceAbsent⟩ := by
  unfold answerBinruleWrite
  simp only [position_eq_some hn, h.binConfigOfArgs hr, yesNo_eq_some hclear, decide_eq_true_eq]

/-- The first check: the position (R69). -/
theorem answerBinruleWrite_badIndex {args : List Byte} (h : 7 < argNat args 0) (s : State) :
    answerBinruleWrite args s = refusal .badIndex s := by
  unfold answerBinruleWrite
  rw [position_eq_none (n := 8) h]

/-- The second and third checks: the other fields (R69). -/
theorem answerBinruleWrite_badValue {args : List Byte} (h0 : argNat args 0 ≤ 7)
    (h : 1023 < argWord args 2 ∨ 8 < argNat args 4 ∨ 47 < argNat args 6 ∨ 15 < argNat args 7 ∨
      47 < argNat args 10 ∨ 7 < argNat args 11 ∨ 1 < argNat args 1 ∨ 4 < argNat args 5 ∨ 1 < argNat args 8 ∨
      2 < argNat args 9 ∨ 1 < argNat args 12 ∨ 1 < argNat args 13) (s : State) :
    answerBinruleWrite args s = refusal .badValue s := by
  obtain ⟨n, hn⟩ := Option.isSome_iff_exists.1 ((position_isSome_iff 8 _).2 (Nat.lt_succ_of_le h0))
  unfold answerBinruleWrite
  rw [hn]
  dsimp only
  split
  · rename_i hc hclear
    have hclear' : argNat args 13 ≤ 1 := (yesNo_isSome_iff _).1 (Option.isSome_of_mem hclear)
    have hc' := binConfigOfArgs_inRange hc
    omega
  · rfl

/-- An accepted BINRULE_WRITE with all its arguments is answered as the bin unit answers. -/
theorem exec_binruleWrite {tag : Byte} {args results : List Byte} {s u : State} {st : Status}
    (hs : Accepts 17 tag s) (hl : 14 ≤ args.length) (ha : answerBinruleWrite args s = ⟨u, st, results⟩) :
    exec (.binruleWrite .addressed tag args) s = .next (settle (answered 17 tag st results u)) :=
  exec_answered (k := .binruleWrite) hs (by decide) (Nat.add_le_add_right hl 2) ha

/-- Settles O22: the rule that the arguments carry, or the two refusals in the order of R69. -/
theorem binruleWriteSetsTheRule : Obligations.BinruleWriteSetsTheRule := by
  intro tag args s hs hl
  refine ⟨?_, fun h => ?_, fun h0 h => ?_⟩
  · intro n c r hn hr hen hbase hbase' hwidth hwidth' hsource hso hso' hshift hshift' hmode hgate hgo hgo' hgb hgb'
      hinc hclear
    subst hr
    exact exec_binruleWrite hs hl (answerBinruleWrite_carried hn
      ⟨hen, hbase, hwidth, hsource, hso, hshift, hmode, hgate, hgo, hgb, hinc⟩
      ⟨hbase', hwidth', hso', hshift', hgo', hgb'⟩ hclear s)
  · exact exec_binruleWrite hs hl (answerBinruleWrite_badIndex h s)
  · exact exec_binruleWrite hs hl (answerBinruleWrite_badValue h0 h s)

end Sys2Proof.Machine
end

section
/-! PROOF. O23: the three requests over a range of bins. Their checks, the values of the range and the clearing of the
range are each said once. -/

namespace Sys2Proof.Machine

/-! ### The checks -/

/-- The first check: the count (R72). -/
theorem binRangeCheck_badValue {most first count : Nat} (h : count = 0 ∨ most < count) :
    binRangeCheck most first count = some .badValue := if_pos h

/-- The second and third checks: the range stays in the table (R72). -/
theorem binRangeCheck_badIndex {most first count : Nat} (hpos : 0 < count) (hmost : count ≤ most)
    (h : 1024 < first + count) : binRangeCheck most first count = some .badIndex := by
  unfold binRangeCheck
  rw [if_neg (by omega), if_pos h, ite_self]

theorem binRangeCheck_inRange {most first count : Nat} (hpos : 0 < count) (hmost : count ≤ most)
    (h : first + count ≤ 1024) : binRangeCheck most first count = none := by
  unfold binRangeCheck
  rw [if_neg (by omega), if_neg (by omega), if_neg (by omega)]

/-! ### The range of bins -/

/-- The values of a range of the table are that part of the table (R73). -/
theorem binValues_eq {first count : Nat} (h : first + count ≤ 1024) (s : State) :
    binValues first count s = (s.bins.toList.drop first).take count := by
  refine List.ext_getElem (by simp [binValues]; omega) fun i hi _ => ?_
  have hlt : first + i < 1024 := by simp [binValues] at hi; omega
  simp [binValues, State.bin_of_lt hlt]

/-- A range of bins set to 0 is the table with 0 in the range and no other bin changed (R74). -/
theorem clearBins_eq {first count : Nat} {s : State} {cleared : Vector Word32 1024}
    (h : ∀ b : Fin 1024, cleared[b] = if first ≤ b.val ∧ b.val < first + count then 0 else s.bins[b]) :
    clearBins first count s = { s with bins := cleared } := by
  have hbins : (s.bins.mapIdx fun b w => if first ≤ b ∧ b < first + count then 0 else w) = cleared :=
    Vector.ext fun b hb => (Vector.getElem_mapIdx ..).trans (h ⟨b, hb⟩).symm
  rw [clearBins, hbins]

/-! ### The three answers -/

/-- A number read from two arguments is carried back by the same two bytes (R211). -/
theorem bytes16_argWord (args : List Byte) (i : Nat) :
    bytes16 (argWord args i) = [argByte args i, argByte args (i + 1)] := by
  have hlt : (argByte args (i + 1)).toNat < 256 := (argByte args (i + 1)).isLt
  have hhigh : byteOf (argWord args i / 256) = argByte args i :=
    byteOf_of_toNat_eq (by unfold argWord argNat; omega)
  have hlow : byteOf (argWord args i) = argByte args (i + 1) := by
    apply BitVec.eq_of_toNat_eq
    rw [toNat_byteOf]
    unfold argWord argNat
    omega
  rw [bytes16, hhigh, hlow]

theorem binRangeBytes_cons (f1 f0 c1 c0 : Byte) (more : List Byte) :
    binRangeBytes (f1 :: f0 :: c1 :: c0 :: more) = [f1, f0, c1, c0] := by
  rw [binRangeBytes, bytes16_argWord, bytes16_argWord]
  rfl

section
variable {tag : Byte} {args : List Byte} {s : State} {st : Status}

theorem exec_binsRead_refused (hs : Accepts 19 tag s) (hl : 4 ≤ args.length)
    (h : binRangeCheck 10 (argWord args 0) (argWord args 2) = some st) :
    exec (.binsRead .addressed tag args) s = .next (settle (answered 19 tag st [] s)) :=
  exec_answered (k := .binsRead) hs (by decide) (Nat.add_le_add_right hl 2)
    (by rw [ownerAnswer, answerBinsRead, h]; rfl)

theorem exec_binsReadClear_refused (hs : Accepts 20 tag s) (hl : 4 ≤ args.length)
    (h : binRangeCheck 10 (argWord args 0) (argWord args 2) = some st) :
    exec (.binsReadClear .addressed tag args) s = .next (settle (answered 20 tag st [] s)) :=
  exec_answered (k := .binsReadClear) hs (by decide) (Nat.add_le_add_right hl 2)
    (by rw [ownerAnswer, answerBinsReadClear, h]; rfl)

theorem exec_binsClear_refused (hs : Accepts 21 tag s) (hl : 4 ≤ args.length)
    (h : binRangeCheck 1024 (argWord args 0) (argWord args 2) = some st) :
    exec (.binsClear .addressed tag args) s = .next (settle (answered 21 tag st [] s)) :=
  exec_answered (k := .binsClear) hs (by decide) (Nat.add_le_add_right hl 2)
    (by rw [ownerAnswer, answerBinsClear, h]; rfl)

/-- BINS_READ answers with the range (R73). -/
theorem exec_binsRead_passed (hs : Accepts 19 tag s) (hl : 4 ≤ args.length)
    (h : binRangeCheck 10 (argWord args 0) (argWord args 2) = none) :
    exec (.binsRead .addressed tag args) s = .next (settle (answered 19 tag .ok
      (binRangeBytes args ++ (binValues (argWord args 0) (argWord args 2) s).flatMap bytes32) s)) :=
  exec_answered (k := .binsRead) hs (by decide) (Nat.add_le_add_right hl 2)
    (by rw [ownerAnswer, answerBinsRead, h])

/-- BINS_READ_CLEAR answers with the range and clears it (R74). -/
theorem exec_binsReadClear_passed (hs : Accepts 20 tag s) (hl : 4 ≤ args.length)
    (h : binRangeCheck 10 (argWord args 0) (argWord args 2) = none) :
    exec (.binsReadClear .addressed tag args) s = .next (settle (answered 20 tag .ok
      (binRangeBytes args ++ (binValues (argWord args 0) (argWord args 2) s).flatMap bytes32)
      (clearBins (argWord args 0) (argWord args 2) s))) :=
  exec_answered (k := .binsReadClear) hs (by decide) (Nat.add_le_add_right hl 2)
    (by rw [ownerAnswer, answerBinsReadClear, h])

/-- BINS_CLEAR answers with how many bins stood above 0 and at the maximum, and clears the range (R75). -/
theorem exec_binsClear_passed (hs : Accepts 21 tag s) (hl : 4 ≤ args.length)
    (h : binRangeCheck 1024 (argWord args 0) (argWord args 2) = none) :
    exec (.binsClear .addressed tag args) s = .next (settle (answered 21 tag .ok
      (binRangeBytes args ++
        bytes16 ((binValues (argWord args 0) (argWord args 2) s).countP fun w => w ≠ 0) ++
        bytes16 ((binValues (argWord args 0) (argWord args 2) s).countP fun w => w = countMax))
      (clearBins (argWord args 0) (argWord args 2) s))) :=
  exec_answered (k := .binsClear) hs (by decide) (Nat.add_le_add_right hl 2)
    (by simp only [ownerAnswer, answerBinsClear, h, ne_eq, decide_not]; rfl)

end

/-- Settles O23: the range read, read and cleared, and cleared, and the refusals in the order of R72. -/
theorem binsAreReadAndCleared : Obligations.BinsAreReadAndCleared := by
  intro tag f1 f0 c1 c0 more s first count args hfirst hcount hargs
  have hl : 4 ≤ args.length := by rw [hargs]; exact Nat.le_add_left _ _
  have hbytes : binRangeBytes args = [f1, f0, c1, c0] := hargs ▸ binRangeBytes_cons f1 f0 c1 c0 more
  obtain rfl : argWord args 0 = first := by rw [hargs, hfirst]; rfl
  obtain rfl : argWord args 2 = count := by rw [hargs, hcount]; rfl
  refine ⟨fun hpos hrange cleared hcleared => ?_, fun h => ?_, fun h hs => ?_, fun hpos hmost hpast => ?_⟩
  · rw [← hbytes, ← binValues_eq hrange, ← clearBins_eq hcleared]
    refine ⟨fun hten hs => ?_, fun hten hs => ?_, fun hs => ?_⟩
    · exact exec_binsRead_passed hs hl (binRangeCheck_inRange hpos hten hrange)
    · exact exec_binsReadClear_passed hs hl (binRangeCheck_inRange hpos hten hrange)
    · exact exec_binsClear_passed hs hl (binRangeCheck_inRange hpos (by omega) hrange)
  · exact ⟨fun hs => exec_binsRead_refused hs hl (binRangeCheck_badValue h),
      fun hs => exec_binsReadClear_refused hs hl (binRangeCheck_badValue h)⟩
  · exact exec_binsClear_refused hs hl (binRangeCheck_badValue h)
  · refine ⟨fun hten hs => ?_, fun hten hs => ?_, fun hs => ?_⟩
    · exact exec_binsRead_refused hs hl (binRangeCheck_badIndex hpos hten hpast)
    · exact exec_binsReadClear_refused hs hl (binRangeCheck_badIndex hpos hten hpast)
    · exact exec_binsClear_refused hs hl (binRangeCheck_badIndex hpos hmost hpast)

end Sys2Proof.Machine
end

section
/-! PROOF. O24: CAPTURE_FETCH and CAPTURE_RELEASE, one equation per answer of the ring. -/

namespace Sys2Proof.Machine

/-! ### The results of a fetch -/

/-- The payload length of a header is the low six bits of its second byte (R213). -/
theorem byteOf_headerOf_length (buf : List Byte) : byteOf (headerOf buf).length = argByte buf 1 &&& 0x3F := by
  apply BitVec.eq_of_toNat_eq
  calc (byteOf (headerOf buf).length).toNat
      = (argByte buf 1).toNat % 2 ^ 6 % 256 := toNat_byteOf _
    _ = (argByte buf 1).toNat % 2 ^ 6 := by omega
    _ = (argByte buf 1).toNat &&& (2 ^ 6 - 1) := (Nat.and_two_pow_sub_one_eq_mod _ 6).symm
    _ = (argByte buf 1 &&& 0x3F).toNat := (BitVec.toNat_and (argByte buf 1) 0x3F).symm

theorem paddedPayload_take (r : CaptureRecord) :
    (paddedPayload r).take 24 = (r.payload ++ List.replicate 48 0).take 24 := List.take_take

theorem paddedPayload_drop (r : CaptureRecord) :
    (paddedPayload r).drop 24 = ((r.payload ++ List.replicate 48 0).drop 24).take 24 := List.drop_take

/-! ### The answers -/

section
variable {args : List Byte} {s : State}

/-- Part 0 of the oldest record (R87). -/
theorem answerCaptureFetch_part0 {r : CaptureRecord} {rest : List CaptureRecord} (hpart : argByte args 0 = 0)
    (h : s.captures = r :: rest) :
    answerCaptureFetch args s = ⟨s, .ok, capturePart0 r (rest.length + 1)⟩ := by
  simp [answerCaptureFetch, hpart, h]

/-- Part 1 of the oldest record (R88). -/
theorem answerCaptureFetch_part1 {r : CaptureRecord} {rest : List CaptureRecord} (hpart : argByte args 0 = 1)
    (h : s.captures = r :: rest) :
    answerCaptureFetch args s = ⟨s, .ok, capturePart1 r (rest.length + 1)⟩ := by
  simp [answerCaptureFetch, hpart, h]

/-- An empty ring has no record to fetch, and tells the next capture number (R87). -/
theorem answerCaptureFetch_empty (hpart : argByte args 0 = 0 ∨ argByte args 0 = 1) (h : s.captures = []) :
    answerCaptureFetch args s = ⟨s, .noCapture, bytes16 s.nextCapture.toNat⟩ := by
  rcases hpart with hpart | hpart <;> simp [answerCaptureFetch, hpart, h]

/-- A record has no third part (R87). -/
theorem answerCaptureFetch_badValue (h0 : argByte args 0 ≠ 0) (h1 : argByte args 0 ≠ 1) :
    answerCaptureFetch args s = refusal .badValue s := if_pos ⟨h0, h1⟩

/-- A release of the oldest record's number removes the record (R89). -/
theorem answerCaptureRelease_oldest {r : CaptureRecord} {rest : List CaptureRecord} (h : s.captures = r :: rest)
    (hnumber : r.number.toNat = argWord args 0) :
    answerCaptureRelease args s = ⟨{ s with captures := rest }, .ok, [byteOf rest.length]⟩ := by
  simp only [answerCaptureRelease, h, if_pos hnumber]

/-- A release of any other number tells the oldest one (R89). -/
theorem answerCaptureRelease_notFound {r : CaptureRecord} {rest : List CaptureRecord} (h : s.captures = r :: rest)
    (hnumber : r.number.toNat ≠ argWord args 0) :
    answerCaptureRelease args s = ⟨s, .notFound, bytes16 r.number.toNat⟩ := by
  simp only [answerCaptureRelease, h, if_neg hnumber]

/-- An empty ring has no record to release, and tells the next capture number (R89). -/
theorem answerCaptureRelease_empty (h : s.captures = []) :
    answerCaptureRelease args s = ⟨s, .noCapture, bytes16 s.nextCapture.toNat⟩ := by
  simp only [answerCaptureRelease, h]

/-! ### The two commands -/

/-- An accepted CAPTURE_FETCH with its argument is answered as the ring answers. -/
theorem exec_captureFetch {tag : Byte} {results : List Byte} {u : State} {st : Status} (hs : Accepts 22 tag s)
    (hl : 1 ≤ args.length) (ha : answerCaptureFetch args s = ⟨u, st, results⟩) :
    exec (.captureFetch .addressed tag args) s = .next (settle (answered 22 tag st results u)) :=
  exec_answered (k := .captureFetch) hs (by decide) (Nat.add_le_add_right hl 2) ha

/-- An accepted CAPTURE_RELEASE with its arguments is answered as the ring answers. -/
theorem exec_captureRelease {tag : Byte} {results : List Byte} {u : State} {st : Status} (hs : Accepts 23 tag s)
    (hl : 2 ≤ args.length) (ha : answerCaptureRelease args s = ⟨u, st, results⟩) :
    exec (.captureRelease .addressed tag args) s = .next (settle (answered 23 tag st results u)) :=
  exec_answered (k := .captureRelease) hs (by decide) (Nat.add_le_add_right hl 2) ha

end

/-- Settles O24: both parts of the oldest record and the two refusals of a fetch, and the three outcomes of a
release. -/
theorem captureFetchAndRelease : Obligations.CaptureFetchAndRelease := by
  refine ⟨fun tag part more s hs => ⟨fun r rest padded hring hpadded => ⟨fun hpart => ?_, fun hpart => ?_⟩,
      fun hring hpart => ?_, fun h0 h1 => ?_⟩,
    fun tag n1 n0 more s hs => ⟨fun r rest hring => ⟨fun hnumber => ?_, fun hnumber => ?_⟩, fun hring => ?_⟩⟩
  · subst hpadded
    rw [← paddedPayload_take]
    have ha : answerCaptureFetch (part :: more) s = _ := answerCaptureFetch_part0 hpart hring
    refine (exec_captureFetch hs (Nat.le_add_left _ _) ha).trans ?_
    rw [capturePart0]
    cases r.entry <;> cases r.action <;> rfl
  · subst hpadded
    rw [← paddedPayload_drop, ← byteOf_headerOf_length]
    exact exec_captureFetch hs (Nat.le_add_left _ _) (answerCaptureFetch_part1 hpart hring)
  · exact exec_captureFetch hs (Nat.le_add_left _ _) (answerCaptureFetch_empty hpart hring)
  · exact exec_captureFetch hs (Nat.le_add_left _ _) (answerCaptureFetch_badValue h0 h1)
  · exact exec_captureRelease hs (Nat.le_add_left _ _) (answerCaptureRelease_oldest hring hnumber)
  · exact exec_captureRelease hs (Nat.le_add_left _ _) (answerCaptureRelease_notFound hring hnumber)
  · exact exec_captureRelease hs (Nat.le_add_left _ _) (answerCaptureRelease_empty hring)

end Sys2Proof.Machine
end

section
/-! PROOF, the shared layer of the upstream path: what the owning rules reach, the end of a data cell's transmission,
and the commands of the ports and the transmitters as their events with the decisions at the close. -/

namespace Sys2Proof.Machine

/-! ### What the owning rules reach -/

/-- A setting that is written reaches the settings, the action table and the refill timer alone (R34, R45, R171). -/
theorem setSetting_frame (i : SettingItem) (v : Nat) (s : State) :
    ∃ x0 x1 x2, setSetting i v s = { s with actions := x0, refillLeft := x1, settings := x2 } := by
  cases i with
  | missAction => exact ⟨_, _, _, setMissAction_reaches _ s⟩
  | _ => exact ⟨_, _, _, rfl⟩

/-- No owning rule reaches the pool, the reception, a queue, a transmitter, a port, the replies or their memory, and
none but that of STATS_CLEAR reaches the counters (R155). -/
theorem ownerAnswer_frame {k : Kind} (hk : k ≠ .statsClear) (args : List Byte) (s : State) :
    ∃ x0 x1 x2 x3 x4 x5 x6 x7 x8 x9 x10,
      (ownerAnswer k args s).st = { s with
        entries := x0, actions := x1, meters := x2, refillLeft := x3, bins := x4, rules := x5, captures := x6,
        sent := x7, nodeAddress := x8, resetPending := x9, settings := x10 } := by
  cases k with
  | statsClear => exact absurd rfl hk
  | settingWrite =>
    dsimp only [ownerAnswer, answerSettingWrite, refusal]
    iterate 3 (split; · exact ⟨_, _, _, _, _, _, _, _, _, _, _, rfl⟩)
    obtain ⟨_, _, _, h⟩ := setSetting_frame _ _ s
    exact ⟨_, _, _, _, _, _, _, _, _, _, _, h⟩
  | entryWrite =>
    dsimp only [ownerAnswer, answerEntryWrite, refusal]
    iterate 6 (split; · exact ⟨_, _, _, _, _, _, _, _, _, _, _, rfl⟩)
    obtain ⟨_, _, h⟩ := writeEntry_frame _ _ s
    exact ⟨_, _, _, _, _, _, _, _, _, _, _, h⟩
  | entryRetire =>
    dsimp only [ownerAnswer, answerEntryRetire, refusal]
    split
    · exact ⟨_, _, _, _, _, _, _, _, _, _, _, rfl⟩
    · obtain ⟨_, _, h⟩ := retireEntry_frame _ s
      exact ⟨_, _, _, _, _, _, _, _, _, _, _, h⟩
  | batchActivate =>
    dsimp only [ownerAnswer, answerBatchActivate, refusal]
    split
    · obtain ⟨_, _, h⟩ := atEveryPosition_frame _ (activateAt_frame _ _) s
      rw [h]
      exact ⟨_, _, _, _, _, _, _, _, _, _, _, rfl⟩
    · exact ⟨_, _, _, _, _, _, _, _, _, _, _, rfl⟩
  | batchRetire =>
    dsimp only [ownerAnswer, answerBatchRetire, refusal]
    split
    · exact ⟨_, _, _, _, _, _, _, _, _, _, _, rfl⟩
    · obtain ⟨_, _, h⟩ := atEveryPosition_frame _ (retireIfIn_frame _) s
      rw [h]
      exact ⟨_, _, _, _, _, _, _, _, _, _, _, rfl⟩
  | batchDiscard =>
    dsimp only [ownerAnswer, answerBatchDiscard, refusal]
    split
    · exact ⟨_, _, _, _, _, _, _, _, _, _, _, rfl⟩
    · obtain ⟨_, _, h⟩ := atEveryPosition_frame _ (discardIfIn_frame _) s
      rw [h]
      exact ⟨_, _, _, _, _, _, _, _, _, _, _, rfl⟩
  | _ =>
    dsimp only [ownerAnswer, answerPing, answerIdentRead, answerAddressAssign, answerSettingRead, answerEntryRead,
      answerActionWrite, answerActionRead, answerActionClear, answerMeterWrite, answerMeterRead, answerBinruleWrite,
      answerBinruleRead, answerBinsRead, answerBinsReadClear, answerBinsClear, answerCaptureFetch,
      answerCaptureRelease, answerReportAck, answerStatsRead, answerDeviceReset, refusal]
    repeat' split
    all_goals exact ⟨_, _, _, _, _, _, _, _, _, _, _, rfl⟩

/-! ### The end of a data cell's transmission -/

/-- An urgent cell whose transmission ends leaves its queue and frees its buffer (R110). -/
theorem endUrgent_cons {c : Cell} {rest : List Cell} {s : State} (hq : s.urgent = c :: rest) (e : TxEnd) :
    endUrgent e s = ({ s with urgent := rest, freeBuffers := s.freeBuffers + 1 } : State).count
      (if e = .complete then .forwarded else .txAborted) := by
  unfold endUrgent
  rw [hq]

/-- A normal cell whose transmission ends leaves its queue and frees its buffer; the starvation count returns to 0 with
the last one (R110, R122). -/
theorem endNormal_cons {c : Cell} {rest : List Cell} {s : State} (hq : s.normal = c :: rest) (e : TxEnd) :
    endNormal e s = ({ s with
        normal := rest
        freeBuffers := s.freeBuffers + 1
        starvation := if rest = [] then 0 else s.starvation } : State).count
      (if e = .complete then .forwarded else .txAborted) := by
  unfold endNormal
  rw [hq]
  simp only [List.isEmpty_iff]

/-- The end of an urgent cell reaches its queue, the pool and the counters alone (R110). -/
theorem endUrgent_frame (e : TxEnd) (s : State) :
    ∃ x0 x1 x2, endUrgent e s = { s with urgent := x0, freeBuffers := x1, stats := x2 } := by
  unfold endUrgent
  split
  all_goals exact ⟨_, _, _, rfl⟩

/-- The end of a normal cell reaches its queue, the pool, the starvation count and the counters alone (R110, R122). -/
theorem endNormal_frame (e : TxEnd) (s : State) :
    ∃ x0 x1 x2 x3, endNormal e s = { s with normal := x0, freeBuffers := x1, starvation := x2, stats := x3 } := by
  unfold endNormal
  split
  all_goals exact ⟨_, _, _, _, rfl⟩

/-! ### Commands of a part that RESETN does not hold -/

theorem unlessHeld_running {s : State} (h : s.resetHeld = false) (f : State → State) : unlessHeld f s = f s :=
  if_neg (by simp [h])

/-- A symbol command is the arrival of its symbol, with the decisions at its close (log 3). -/
theorem symbolCommand_running {s : State} (h : s.resetHeld = false) (p : Side) (y : Symbol) :
    symbolCommand p y s = .next (settle (receive p y s)) :=
  congrArg Host.Outcome.next (unlessHeld_running h _)

theorem exec_symbolOf {s : State} (h : s.resetHeld = false) (p : Side) (y : Symbol) :
    exec (symbolOf p y) s = .next (settle (receive p y s)) := by
  have hc := symbolCommand_running h p y
  cases p <;> cases y <;> exact hc

theorem exec_lossOfSignal {s : State} (h : s.resetHeld = false) (p : Side) :
    exec (.lossOfSignal p) s = .next (settle (loseSignal p s)) :=
  congrArg Host.Outcome.next (unlessHeld_running h _)

theorem exec_transmitComplete {s : State} (h : s.resetHeld = false) :
    exec .transmitComplete s = .next (settle (headTxEnd .complete s)) :=
  congrArg Host.Outcome.next (unlessHeld_running h _)

/-! ### Symbols of an UP port (R188) -/

section
variable {p : Side} {s : State} (hup : (s.port p).link = .up)
include hup

theorem receive_between (hpos : (s.port p).position = .between) (y : Symbol) :
    receive p y s = symbolBetween p y s := by
  simp only [receive, hup, hpos]

theorem receive_inCell (hpos : (s.port p).position = .inCell) (y : Symbol) :
    receive p y s = symbolInCell p y s := by
  simp only [receive, hup, hpos]

theorem receive_hunting (hpos : (s.port p).position = .hunting) (y : Symbol) :
    receive p y s = symbolHunting p y s := by
  simp only [receive, hup, hpos]

end

end Sys2Proof.Machine
end

section
/-! PROOF. O52: the pool and the upstream account balance. Every event leaves the account as it is, or begins a cell,
ends one, lets one pass that found no buffer, or opens the account anew. -/

namespace Sys2Proof.Machine

/-! ### Accounts -/

/-- What R94 and R112 count: the free buffers, the upstream cells held, and the two sides of the equality of R112. -/
structure Account where
  free : Nat
  held : Nat
  started : Word32
  ended : Word32

/-- The account of a part. -/
def State.account (s : State) : Account where
  free := s.freeBuffers
  held := receivingTerm s.tailRx + s.urgent.length + s.normal.length
  started := startedSide s.stats
  ended := endedSide s.stats

/-- R94, R112: both balances of an account. -/
structure Account.Balanced (a : Account) : Prop where
  pool : a.free + a.held = 24
  cells : a.started = a.ended + BitVec.ofNat 32 a.held

theorem account_balanced_iff (s : State) : s.account.Balanced ↔ poolBalanced s ∧ upstreamBalanced s := by
  have hpool : poolBalanced s ↔ s.account.free + s.account.held = 24 := by
    simp only [poolBalanced, State.account, Nat.add_assoc]
  exact ⟨fun ⟨hp, hc⟩ => ⟨hpool.2 hp, hc⟩, fun ⟨hp, hc⟩ => ⟨hpool.1 hp, hc⟩⟩

/-- A cell that starts takes a buffer (R97). -/
def Account.begin (a : Account) : Account := ⟨a.free - 1, a.held + 1, a.started + 1, a.ended⟩

/-- A held cell that ends is counted and frees its buffer (R94, R110). -/
def Account.finish (a : Account) : Account := ⟨a.free + 1, a.held - 1, a.started, a.ended + 1⟩

/-- A cell that starts and finds no buffer is counted at once (R97). -/
def Account.pass (a : Account) : Account := ⟨a.free, a.held, a.started + 1, a.ended + 1⟩

theorem Account.Balanced.begin {a : Account} (h : a.Balanced) (hfree : 0 < a.free) : a.begin.Balanced := by
  obtain ⟨hpool, hcells⟩ := h
  refine ⟨by simp only [Account.begin]; omega, ?_⟩
  simp only [Account.begin, hcells, BitVec.ofNat_add]
  ac_rfl

theorem Account.Balanced.finish {a : Account} (h : a.Balanced) (hheld : 0 < a.held) : a.finish.Balanced := by
  obtain ⟨hpool, hcells⟩ := h
  obtain ⟨n, hn⟩ := Nat.exists_eq_succ_of_ne_zero hheld.ne'
  refine ⟨by simp only [Account.finish]; omega, ?_⟩
  simp only [Account.finish, hcells, hn, Nat.succ_eq_add_one, Nat.add_sub_cancel, BitVec.ofNat_add]
  ac_rfl

theorem Account.Balanced.pass {a : Account} (h : a.Balanced) : a.pass.Balanced := by
  refine ⟨h.pool, ?_⟩
  simp only [Account.pass, h.cells]
  ac_rfl

/-- A part that holds no cell, has every buffer free and has counted nothing is balanced. -/
theorem Account.Balanced.of_empty : Account.Balanced ⟨24, 0, 0, 0⟩ := ⟨rfl, by decide⟩

/-! ### Counters and occurrences -/

/-- The counters on the right side of the equality of R112 that events raise. -/
def Counter.endsCell : Counter → Bool
  | .headerBad => true
  | .payloadBad => true
  | .rxAborted => true
  | .poolDropped => true
  | .actionDiscarded => true
  | .meterDropped => true
  | .queueDropped => true
  | .forwarded => true
  | .txAborted => true
  | _ => false

theorem endedSide_raise {c : Counter} (hc : c.endsCell = true) (t : Stats) :
    endedSide (t.raise c) = endedSide t + 1 := by
  cases c <;> cases hc <;> (simp only [endedSide, Stats.raise]; ac_rfl)

theorem startedSide_raise {c : Counter} (hc : c.endsCell = true) (t : Stats) :
    startedSide (t.raise c) = startedSide t := by
  cases c <;> cases hc <;> rfl

theorem startedSide_raise_started (t : Stats) : startedSide (t.raise .started) = startedSide t + 1 := by
  simp only [startedSide, Stats.raise]
  ac_rfl

/-- A raised counter of R112's right side, in the account. -/
theorem account_count {c : Counter} (hc : c.endsCell = true) (s : State) :
    (s.count c).account = { s.account with ended := s.account.ended + 1 } := by
  simp only [State.account, State.count_stats, endedSide_raise hc, startedSide_raise hc, State.count_freeBuffers,
    State.count_tailRx, State.count_urgent, State.count_normal]

theorem account_occur (k : ReportKind) (n : Nat) (s : State) : (occur k n s).account = s.account := by
  rw [occur_reaches]
  rfl

/-! ### The reception -/

theorem account_keyOccurrences (v : Verdict) (size : Nat) (s : State) :
    (keyOccurrences v size s).account = s.account := by
  unfold keyOccurrences
  dsimp only
  repeat' split
  all_goals simp only [account_occur]

/-- Classification takes no cell in and lets none go (R14). -/
theorem Classified.account_eq {key : Key} {s w : State} {v : Verdict} (h : Classified key s w v) :
    w.account = s.account := by
  obtain ⟨_, _, hstats⟩ := h.reports
  have hstarted : startedSide w.stats = startedSide s.stats := by
    rw [hstats]
    exact congrArg Account.started (account_keyOccurrences v _ s)
  have hended : endedSide w.stats = endedSide s.stats := by
    rw [hstats]
    exact congrArg Account.ended (account_keyOccurrences v _ s)
  rw [h.rest]
  simp only [State.account, hstarted, hended]

/-- Key-complete changes what the reception record holds, and takes no cell in or out (R101). -/
theorem account_reachVerdict {r : Reception} (l : Latched) {s : State} (hx : s.tailRx = .receiving r) :
    (reachVerdict r l s).1.account = s.account := by
  unfold reachVerdict
  split
  · rfl
  · have hc := formVerdict_classified l r.buf s
    have hw : (formVerdict l r.buf s).1.tailRx = .receiving r := by rw [hc.rest, hx]
    refine Eq.trans ?_ hc.account_eq
    simp only [State.account, hw, receivingTerm]

/-- A reception that ends without queueing its cell frees the buffer (R94). -/
theorem account_freeReception {x : TailRx} (h0 : receivingTerm x = 0) {r : Reception} {s : State}
    (hx : s.tailRx = .receiving r) : (freeReception x s).account =
      { s.account with free := s.account.free + 1, held := s.account.held - 1 } := by
  have hheld : 0 + s.urgent.length + s.normal.length = 1 + s.urgent.length + s.normal.length - 1 := by omega
  have hr : receivingTerm s.tailRx = 1 := by rw [hx]; rfl
  simp only [State.account, freeReception, hr, h0, hheld]

theorem account_releaseHeld (s : State) : (releaseHeld s).account = s.account := by
  obtain ⟨_, _, h⟩ := releaseHeld_frame s
  rw [h]
  rfl

/-- A counted cell that leaves the reception ends (R99, R100, R102, R107). -/
theorem account_freeReception_count {c : Counter} (hc : c.endsCell = true) {x : TailRx} (h0 : receivingTerm x = 0)
    {r : Reception} {s : State} (hx : s.tailRx = .receiving r) :
    (freeReception x (s.count c)).account = s.account.finish := by
  rw [account_freeReception h0 (s := s.count c) hx, account_count hc]
  rfl

theorem account_failReception {c : Counter} (hc : c.endsCell = true) {r : Reception} {s : State}
    (hx : s.tailRx = .receiving r) : (failReception c s).account = s.account.finish := by
  have hx' : (releaseHeld (s.count c)).tailRx = .receiving r := by
    obtain ⟨_, _, h⟩ := releaseHeld_frame (s.count c)
    rw [h]
    exact hx
  unfold failReception
  rw [account_freeReception rfl hx', account_releaseHeld, account_count hc]
  rfl

/-- A cell that starts takes a buffer, or is counted at once as one that found none (R97). -/
theorem account_tailStartOfCell {s : State} (hx : s.tailRx = .idle) : (tailStartOfCell s).account =
    if 0 < s.account.free then s.account.begin else s.account.pass := by
  unfold tailStartOfCell
  rw [hx]
  dsimp only
  by_cases hfree : 0 < s.freeBuffers
  · rw [if_pos hfree, if_pos (show 0 < s.account.free from hfree)]
    simp only [State.account, Account.begin, State.count_urgent, State.count_normal, State.count_stats,
      startedSide_raise_started, hx, receivingTerm]
    congr 1
    omega
  · rw [if_neg hfree, if_neg (show ¬0 < s.account.free from hfree), account_occur, account_count rfl]
    simp only [State.account, Account.pass, State.count_urgent, State.count_normal, State.count_stats,
      State.count_freeBuffers, startedSide_raise_started, hx, receivingTerm]
    rfl

/-! ### The end of a good cell -/

/-- The two outcomes that queue the cell (R104). -/
def CellOutcome.queues : CellOutcome → Bool
  | .forwardedUrgent => true
  | .forwardedNormal => true
  | _ => false

theorem account_countOutcome (o : CellOutcome) (s : State) : (countOutcome o s).account =
    if o.queues then s.account else { s.account with ended := s.account.ended + 1 } := by
  cases o with
  | forwardedUrgent => rfl
  | forwardedNormal => rfl
  | actionDiscarded => exact account_count rfl s
  | meterDropped => exact account_count rfl s
  | queueDropped => exact (account_occur _ _ _).trans (account_count rfl s)

theorem account_captureCell (v : Verdict) (o : CellOutcome) (h : Header) (buf : List Byte) (s : State) :
    (captureCell v o h buf s).account = s.account := by
  unfold captureCell
  split
  · split
    · exact account_occur _ _ _
    · exact account_occur _ _ _
  · rfl

/-- A queued cell leaves the reception for its queue; another one frees its buffer (R105). -/
theorem account_closeCell (o : CellOutcome) (cell : Cell) {r : Reception} {s : State} (hx : s.tailRx = .receiving r) :
    (closeCell o cell s).account =
      if o.queues then s.account else { s.account with free := s.account.free + 1, held := s.account.held - 1 } := by
  have hx' : (releaseHeld s).tailRx = .receiving r := by
    obtain ⟨_, _, h⟩ := releaseHeld_frame s
    rw [h]
    exact hx
  rw [← account_releaseHeld s]
  cases o with
  | forwardedUrgent => simp [closeCell, State.account, CellOutcome.queues, hx', receivingTerm]; omega
  | forwardedNormal => simp [closeCell, State.account, CellOutcome.queues, hx', receivingTerm]; omega
  | actionDiscarded => exact account_freeReception rfl hx'
  | meterDropped => exact account_freeReception rfl hx'
  | queueDropped => exact account_freeReception rfl hx'

/-- The disposition of a good cell queues it or ends it (R103 to R105). -/
theorem account_disposeCell (v : Verdict) (h : Header) (buf : List Byte) {r : Reception} {s : State}
    (hx : s.tailRx = .receiving r) :
    (disposeCell v h buf s).account = s.account ∨ (disposeCell v h buf s).account = s.account.finish := by
  unfold disposeCell
  dsimp only
  have hcount : (countVerdict v h buf s).account = s.account := by
    rw [countVerdict_reaches]
    rfl
  generalize decideOutcome v (countVerdict v h buf s) = o
  have hx' : (captureCell v o h buf (countOutcome o (countVerdict v h buf s))).tailRx = .receiving r := by
    obtain ⟨_, _, _, _, _, h1⟩ := countVerdict_frame v h buf s
    obtain ⟨_, _, _, h2⟩ := countOutcome_frame o (countVerdict v h buf s)
    obtain ⟨_, _, _, _, _, h3⟩ := captureCell_frame v o h buf (countOutcome o (countVerdict v h buf s))
    rw [h3, h2, h1, hx]
  rw [account_closeCell o _ hx', account_captureCell, account_countOutcome, hcount]
  cases o.queues
  · exact .inr rfl
  · exact .inl rfl

/-! ### Balanced accounts -/

/-- R94, R112: the account of the part balances. -/
def Balanced (s : State) : Prop := s.account.Balanced

theorem Balanced.congr {s u : State} (hs : Balanced s) (h : u.account = s.account) : Balanced u := by
  unfold Balanced
  rw [h]
  exact hs

theorem Balanced.finish {s u : State} (hs : Balanced s) (hheld : 0 < s.account.held)
    (h : u.account = s.account.finish) : Balanced u := by
  unfold Balanced
  rw [h]
  exact Account.Balanced.finish hs hheld

theorem account_held_pos {r : Reception} {s : State} (hx : s.tailRx = .receiving r) : 0 < s.account.held := by
  simp only [State.account, hx, receivingTerm]
  omega

theorem balanced_deviceReset (s : State) : Balanced (deviceReset s) := by
  have h : (deviceReset s).account = ⟨24, 0, 0, 0⟩ := by
    rw [deviceReset_eq]
    cases hx : s.tailRx <;>
      simp [State.account, deviceResetValues, discardReception, receivingTerm, hx, Config.poolBuffers, startedSide,
        endedSide, Stats.zero]
  unfold Balanced
  rw [h]
  exact .of_empty

/-! ### The events on Tail -/

theorem balanced_failReception {c : Counter} (hc : c.endsCell = true) {r : Reception} {s : State}
    (hx : s.tailRx = .receiving r) (hs : Balanced s) : Balanced (failReception c s) :=
  hs.finish (account_held_pos hx) (account_failReception hc hx)

theorem balanced_endReception (ok : Bool) {r : Reception} {l : Latched} {s : State} (hx : s.tailRx = .receiving r)
    (hs : Balanced s) : Balanced (endReception ok r l s) := by
  have hv : Balanced (reachVerdict r l s).1 := hs.congr (account_reachVerdict l hx)
  obtain ⟨r', hx'⟩ : ∃ r', (reachVerdict r l s).1.tailRx = .receiving r' := by
    unfold reachVerdict
    split
    · exact ⟨r, hx⟩
    · exact ⟨_, rfl⟩
  unfold endReception
  dsimp only
  split
  · obtain h | h := account_disposeCell (reachVerdict r l s).2 l.header r.buf hx'
    · exact hv.congr h
    · exact hv.finish (account_held_pos hx') h
  · exact balanced_failReception rfl hx' hv

theorem balanced_tailEnd (ok : Nat → List Byte → Bool) (s : State) (hs : Balanced s) : Balanced (tailEnd ok s) := by
  unfold tailEnd
  split
  · rename_i r hx
    split
    · exact balanced_failReception rfl hx hs
    · exact balanced_endReception _ hx hs
  · exact hs
  · rename_i hx
    exact hs.congr (by simp [State.account, hx, receivingTerm])

theorem balanced_tailAbort (s : State) (hs : Balanced s) : Balanced (tailAbort s) := by
  unfold tailAbort
  split
  · rename_i hx
    exact balanced_failReception rfl hx hs
  · exact hs
  · rename_i hx
    exact hs.congr (by simp [State.account, hx, receivingTerm])

theorem balanced_tailStartOfCell (s : State) (hs : Balanced s) : Balanced (tailStartOfCell s) := by
  cases hx : s.tailRx with
  | idle =>
    have h := account_tailStartOfCell hx
    unfold Balanced
    rw [h]
    split
    · rename_i hfree
      exact Account.Balanced.begin hs hfree
    · exact Account.Balanced.pass hs
  | receiving r => unfold tailStartOfCell; rw [hx]; exact hs
  | discarding => unfold tailStartOfCell; rw [hx]; exact hs

theorem balanced_tailHeaderComplete {r : Reception} {s : State} (hx : s.tailRx = .receiving r) (hs : Balanced s) :
    Balanced (tailHeaderComplete r s) := by
  unfold tailHeaderComplete
  dsimp only
  split
  · exact hs.finish (account_held_pos hx) (account_freeReception_count rfl rfl hx)
  · have hl : ∀ h, Balanced { s with tailRx := .receiving { r with hdr := some h } } := fun h =>
      hs.congr (by simp [State.account, hx, receivingTerm])
    split
    · exact (hl _).congr (account_reachVerdict _ rfl)
    · exact hl _

theorem balanced_tailByte (b : Byte) (s : State) (hs : Balanced s) : Balanced (tailByte b s) := by
  unfold tailByte
  split
  · rename_i r hx
    have hb : Balanced { s with tailRx := .receiving { r with buf := r.buf ++ [b] } } :=
      hs.congr (by simp [State.account, hx, receivingTerm])
    split
    · dsimp only
      split
      · split
        · exact balanced_tailHeaderComplete rfl hb
        · exact hb
      · split
        · exact hb.congr (account_reachVerdict _ rfl)
        · exact hb
    · exact hs
  · exact hs
  · exact hs

/-! ### The transmissions -/

theorem account_recordCut (e : TxEnd) (cell : Cell) (s : State) :
    ({ recordCut .head e cell s with headTx := .idle } : State).account = s.account := by
  cases e <;> rfl

theorem endsCell_txEnd (e : TxEnd) : (if e = .complete then Counter.forwarded else .txAborted).endsCell = true := by
  cases e <;> rfl

/-- A data cell that leaves its queue ends (R110). -/
theorem account_endUrgent (e : TxEnd) {c : Cell} {rest : List Cell} {s : State} (hq : s.urgent = c :: rest) :
    (endUrgent e s).account = s.account.finish := by
  rw [endUrgent_cons hq, account_count (endsCell_txEnd e)]
  simp only [State.account, Account.finish, hq, List.length_cons]
  congr 1
  omega

theorem account_endNormal (e : TxEnd) {c : Cell} {rest : List Cell} {s : State} (hq : s.normal = c :: rest) :
    (endNormal e s).account = s.account.finish := by
  rw [endNormal_cons hq, account_count (endsCell_txEnd e)]
  simp only [State.account, Account.finish, hq, List.length_cons]
  congr 1

theorem balanced_endUrgent (e : TxEnd) (s : State) (hs : Balanced s) : Balanced (endUrgent e s) := by
  cases hq : s.urgent with
  | nil => unfold endUrgent; rw [hq]; exact hs
  | cons c rest =>
    refine hs.finish ?_ (account_endUrgent e hq)
    simp only [State.account, hq, List.length_cons]
    omega

theorem balanced_endNormal (e : TxEnd) (s : State) (hs : Balanced s) : Balanced (endNormal e s) := by
  cases hq : s.normal with
  | nil => unfold endNormal; rw [hq]; exact hs
  | cons c rest =>
    refine hs.finish ?_ (account_endNormal e hq)
    simp only [State.account, hq, List.length_cons]
    omega

theorem balanced_endReply (s : State) (hs : Balanced s) : Balanced (endReply s) := by
  obtain ⟨rs, h | h⟩ := endReply_cases s
  · rw [h]
    exact hs.congr rfl
  · rw [h, ← deviceReset_after]
    exact balanced_deviceReset _

theorem balanced_headTxEnd (e : TxEnd) (s : State) (hs : Balanced s) : Balanced (headTxEnd e s) := by
  unfold headTxEnd
  split
  · exact hs
  · rename_i src cell _
    have hcut : Balanced { recordCut .head e cell s with headTx := .idle } := hs.congr (account_recordCut e cell s)
    cases src with
    | urgent => exact balanced_endUrgent e _ hcut
    | normal => exact balanced_endNormal e _ hcut
    | reply => exact balanced_endReply _ hcut
    | report q => exact hcut.congr rfl
    | detached => exact hcut

theorem account_tailTxEnd (e : TxEnd) (s : State) : (tailTxEnd e s).account = s.account := by
  unfold tailTxEnd
  split
  · rfl
  · cases e <;> rfl

/-! ### The taking of a request -/

/-- STATS_CLEAR sets carried to the cells held, and every other counter to 0 (R201, R203). -/
theorem balanced_answerStatsClear (args : List Byte) (s : State) (hs : Balanced s) :
    Balanced (answerStatsClear args s).st := by
  have hcarried : carriedNow s = BitVec.ofNat 32 s.account.held := by
    unfold carriedNow
    cases hx : s.tailRx <;> simp only [State.account, hx, receivingTerm]
  refine ⟨hs.pool, ?_⟩
  show 0 + carriedNow s = endedSide Stats.zero + BitVec.ofNat 32 s.account.held
  rw [hcarried]
  rfl

theorem balanced_ownerAnswer (k : Kind) (args : List Byte) (s : State) (hs : Balanced s) :
    Balanced (ownerAnswer k args s).st := by
  by_cases hk : k = .statsClear
  · subst hk
    exact balanced_answerStatsClear args s hs
  · obtain ⟨_, _, _, _, _, _, _, _, _, _, _, h⟩ := ownerAnswer_frame hk args s
    rw [h]
    exact hs.congr rfl

theorem account_count_management {c : Counter} (hc : c.ofManagement = true) (s : State) :
    (s.count c).account = s.account := by
  cases c <;> cases hc <;> rfl

theorem balanced_keptByTakingParts : KeptByTakingParts Balanced where
  reset s _ := balanced_deviceReset s
  owner := balanced_ownerAnswer
  count _ s hc hs := hs.congr (account_count_management hc s)
  queue _ _ _ hs := hs.congr rfl
  store _ _ hs := hs.congr rfl

/-! ### The events on Head -/

theorem balanced_takePayload (f : Form) (payload : List Byte) (s : State) (hs : Balanced s) :
    Balanced (takePayload f payload s) := by
  unfold takePayload
  split
  · exact balanced_keptByTakingParts.take f _ _ _ s hs
  · exact hs.congr rfl

theorem account_joinDownstream (c : Cell) (s : State) : (joinDownstream c s).account = s.account := by
  unfold joinDownstream
  split <;> rfl

theorem balanced_acceptDownstream (cell : Cell) (s : State) (hs : Balanced s) :
    Balanced (acceptDownstream cell s) := by
  unfold acceptDownstream
  dsimp only
  split
  · exact balanced_takePayload _ _ _ (hs.congr rfl)
  · exact hs.congr (account_joinDownstream _ _)
  · exact balanced_takePayload _ _ _ (hs.congr (account_joinDownstream _ _))

theorem balanced_headEnd (ok : Nat → List Byte → Bool) (s : State) (hs : Balanced s) : Balanced (headEnd ok s) := by
  unfold headEnd
  split
  · dsimp only
    split
    · exact hs.congr rfl
    · split
      · exact balanced_acceptDownstream _ _ (hs.congr rfl)
      · exact hs.congr rfl
  · exact hs
  · exact hs.congr rfl

theorem account_headByte (b : Byte) (s : State) : (headByte b s).account = s.account := by
  unfold headByte headHeaderComplete
  dsimp only
  repeat' split
  all_goals rfl

theorem account_headAbort (s : State) : (headAbort s).account = s.account := by
  unfold headAbort
  split <;> rfl

/-! ### Every event -/

theorem balanced_keptByPortParts : KeptByPortParts Balanced where
  port p x s hs := hs.congr (by cases p <;> rfl)
  start p s hs := by
    cases p with
    | head =>
      obtain ⟨_, h⟩ := headStartOfCell_frame s
      exact hs.congr (by rw [startEvent, h]; rfl)
    | tail => exact balanced_tailStartOfCell s hs
  byte p b s hs := by
    cases p with
    | head => exact hs.congr (account_headByte b s)
    | tail => exact balanced_tailByte b s hs
  stop p s hs := by
    cases p with
    | head => exact balanced_headEnd _ s hs
    | tail => exact balanced_tailEnd _ s hs
  fail p s hs := by
    cases p with
    | head => exact balanced_headEnd (fun _ _ => false) s hs
    | tail => exact balanced_tailEnd (fun _ _ => false) s hs
  abort p s hs := by
    cases p with
    | head => exact hs.congr (account_headAbort s)
    | tail => exact balanced_tailAbort s hs
  txAbort p s hs := by
    cases p with
    | head => exact balanced_headTxEnd _ s hs
    | tail => exact hs.congr (account_tailTxEnd _ s)
  link n s hs := hs.congr (account_occur _ n s)

theorem balanced_keptByEvents : KeptByEvents Balanced where
  pending _ _ hs := hs.congr rfl
  powerOn _ _ := Account.Balanced.of_empty
  hold _ hs := hs.congr rfl
  freeIndex _ _ hs := hs.congr rfl
  grant s hs := by
    obtain ⟨_, _, _, _, _, _, _, h⟩ := headGrant_frame s
    exact hs.congr (by rw [h]; rfl)
  start s hs := by
    obtain ⟨_, h⟩ := tailStart_frame s
    exact hs.congr (by rw [h]; rfl)
  headTx := balanced_headTxEnd
  tailTx e s hs := hs.congr (account_tailTxEnd e s)
  symbol := balanced_keptByPortParts.receive
  detect := balanced_keptByPortParts.detect
  lose := balanced_keptByPortParts.lose
  take := balanced_keptByTakingParts.take
  refill s hs := by
    obtain ⟨_, _, h⟩ := expireRefill_frame s
    exact hs.congr (by rw [h]; rfl)
  expire q s hs := by
    refine hs.congr ?_
    unfold expireSequence expireRecord
    repeat' split
    all_goals rfl
  advance _ hs := hs.congr rfl

/-- Settles O52: each kind of event keeps the account balanced, and so does every step. -/
theorem stepKeepsThePoolAndTheUpstreamAccount : Obligations.StepKeepsThePoolAndTheUpstreamAccount := by
  intro s t hs he
  rw [← account_balanced_iff] at hs ⊢
  exact balanced_keptByEvents.step s t hs he

end Sys2Proof.Machine
end

section
/-! PROOF. O57: the replies and their memory stay bounded, and a cell in transmission stays at the head of its queue.
What is legal of the reply queue and of the data queues depends on them and on the transmitter alone. -/

namespace Sys2Proof.Machine

/-! ### The reply memory -/

/-- R157: at most 4 records, no two of one tag. -/
structure MemoryLegal (l : List MemoryRecord) : Prop where
  room : l.length ≤ 4
  tags : (l.map MemoryRecord.tag).Nodup

theorem MemoryLegal.of_nil : MemoryLegal [] := ⟨Nat.zero_le _, List.nodup_nil⟩

theorem MemoryLegal.sublist {l k : List MemoryRecord} (h : MemoryLegal l) (hk : k.Sublist l) : MemoryLegal k :=
  ⟨hk.length_le.trans h.room, h.tags.sublist (hk.map _)⟩

/-- A record of a new tag takes a free place (R157). -/
theorem MemoryLegal.append {l : List MemoryRecord} (h : MemoryLegal l) {m : MemoryRecord} (hroom : l.length < 4)
    (hnew : ∀ x ∈ l, x.tag ≠ m.tag) : MemoryLegal (l ++ [m]) := by
  refine ⟨by simpa using hroom, ?_⟩
  rw [List.map_append, List.map_singleton, List.nodup_append]
  refine ⟨h.tags, List.nodup_singleton _, fun t ht t' ht' => ?_⟩
  obtain ⟨x, hx, rfl⟩ := List.mem_map.1 ht
  rw [List.mem_singleton.1 ht']
  exact hnew x hx

/-- The record of a tag is replaced, and a full memory loses its oldest record (R157). -/
theorem MemoryLegal.store {l : List MemoryRecord} (h : MemoryLegal l) (m : MemoryRecord) :
    MemoryLegal (storeMemory m l) := by
  unfold storeMemory
  split
  · rename_i hany
    obtain ⟨x, hx, htag⟩ := List.any_eq_true.1 hany
    have hlt : (l.filter fun x => x.tag != m.tag).length < l.length :=
      List.length_filter_lt_length_iff_exists.2 ⟨x, hx, by simpa using htag⟩
    exact (h.sublist List.filter_sublist).append (hlt.trans_le h.room)
      (fun x hx => by simpa using (List.mem_filter.1 hx).2)
  · rename_i hnone
    have hnew : ∀ x ∈ l, x.tag ≠ m.tag := by simpa using hnone
    split
    · rename_i hfull
      have hlen : 4 ≤ l.length := hfull
      refine (h.sublist (List.drop_sublist 1 l)).append ?_ (fun x hx => hnew x (List.mem_of_mem_drop hx))
      have := h.room
      rw [List.length_drop]
      omega
    · rename_i hroom
      exact h.append (Nat.lt_of_not_le hroom) hnew

/-! ### The reply queue and the transmitter -/

/-- R126, R160: the transmitter sends a reply exactly while the oldest of the queue is marked; no other one is. -/
structure RepliesHeld (tx : HeadTx) (l : List Reply) : Prop where
  others : ∀ r ∈ l.drop 1, r.inTransmission = false
  oldest : (∃ c, tx = .sending .reply c) ↔ ∃ r ∈ l.head?, r.inTransmission = true

/-- The transmitter sends no reply. -/
def HeadTx.noReply (tx : HeadTx) : Prop := ∀ c, tx ≠ .sending .reply c

theorem RepliesHeld.of_unmarked {tx : HeadTx} {l : List Reply} (htx : tx.noReply)
    (hl : ∀ r ∈ l, r.inTransmission = false) : RepliesHeld tx l := by
  refine ⟨fun r hr => hl r (List.mem_of_mem_drop hr), ⟨fun ⟨c, hc⟩ => absurd hc (htx c), fun ⟨r, hr, hm⟩ => ?_⟩⟩
  rw [hl r (List.mem_of_head? hr)] at hm
  cases hm

/-- While the transmitter sends no reply, none is marked (R160). -/
theorem RepliesHeld.unmarked {tx : HeadTx} {l : List Reply} (h : RepliesHeld tx l) (htx : tx.noReply) :
    ∀ r ∈ l, r.inTransmission = false := by
  cases l with
  | nil => simp
  | cons x l =>
    have hx : x.inTransmission = false := by
      rw [Bool.eq_false_iff]
      intro hm
      obtain ⟨c, hc⟩ := h.oldest.2 ⟨x, rfl, hm⟩
      exact htx c hc
    intro r hr
    obtain rfl | hr := List.mem_cons.1 hr
    · exact hx
    · exact h.others r hr

/-- A reply joins the queue unmarked, behind the others (R152). -/
theorem RepliesHeld.queue {tx : HeadTx} {l : List Reply} (h : RepliesHeld tx l) {r : Reply}
    (hr : r.inTransmission = false) : RepliesHeld tx (l ++ [r]) := by
  cases l with
  | nil =>
    have htx : tx.noReply := fun c hc => by
      obtain ⟨x, hx, _⟩ := h.oldest.1 ⟨c, hc⟩
      cases hx
    exact .of_unmarked htx (by simpa using hr)
  | cons x l =>
    refine ⟨fun y hy => ?_, h.oldest⟩
    obtain hy | hy := List.mem_append.1 (show y ∈ l ++ [r] from hy)
    · exact h.others y hy
    · rw [List.mem_singleton.1 hy, hr]

/-- The oldest reply is marked as its transmission starts (R123, R160). -/
theorem RepliesHeld.send {tx : HeadTx} {r : Reply} {rest : List Reply} (h : RepliesHeld tx (r :: rest)) (c : Cell) :
    RepliesHeld (.sending .reply c) ({ r with inTransmission := true } :: rest) :=
  ⟨h.others, ⟨fun _ => ⟨_, rfl, rfl⟩, fun _ => ⟨c, rfl⟩⟩⟩

/-! ### The data queues and the transmitter -/

/-- R108, R123: a data cell in transmission stands at the head of its queue. -/
structure DataHeld (tx : HeadTx) (urgent normal : List Cell) : Prop where
  urgent : ∀ c, tx = .sending .urgent c → urgent.head? = some c
  normal : ∀ c, tx = .sending .normal c → normal.head? = some c

theorem DataHeld.of_idle (urgent normal : List Cell) : DataHeld .idle urgent normal :=
  ⟨fun _ h => (by cases h), fun _ h => (by cases h)⟩

theorem DataHeld.append {tx : HeadTx} {urgent normal : List Cell} (h : DataHeld tx urgent normal)
    (u n : List Cell) : DataHeld tx (urgent ++ u) (normal ++ n) := by
  refine ⟨fun c hc => ?_, fun c hc => ?_⟩
  · rw [List.head?_append, h.urgent c hc]
    rfl
  · rw [List.head?_append, h.normal c hc]
    rfl

/-! ### Events that keep what goes out -/

/-- R108, R126, R157, R160: the replies and the data queues are legal for what the transmitter sends. -/
structure OutgoingLegal (s : State) : Prop where
  room : s.replies.length ≤ 4
  memory : MemoryLegal s.memory
  replies : RepliesHeld s.headTx s.replies
  data : DataHeld s.headTx s.urgent s.normal

theorem outgoingLegal_iff (s : State) : OutgoingLegal s ↔ repliesBounded s ∧ replyHeld s ∧ dataCellHeld s :=
  ⟨fun ⟨hroom, ⟨hlen, htags⟩, ⟨hothers, holdest⟩, ⟨hu, hn⟩⟩ => ⟨⟨hroom, hlen, htags⟩, ⟨hothers, holdest⟩, hu, hn⟩,
    fun ⟨⟨hroom, hlen, htags⟩, ⟨hothers, holdest⟩, hu, hn⟩ => ⟨hroom, ⟨hlen, htags⟩, ⟨hothers, holdest⟩, ⟨hu, hn⟩⟩⟩

/-- What the invariant is about. -/
def outgoing (s : State) : HeadTx × List Reply × List MemoryRecord × List Cell × List Cell :=
  (s.headTx, s.replies, s.memory, s.urgent, s.normal)

theorem OutgoingLegal.congr {s u : State} (hs : OutgoingLegal s) (h : outgoing u = outgoing s) : OutgoingLegal u := by
  simp only [outgoing, Prod.mk.injEq] at h
  obtain ⟨htx, hreplies, hmemory, hurgent, hnormal⟩ := h
  exact ⟨hreplies ▸ hs.room, hmemory ▸ hs.memory, htx ▸ hreplies ▸ hs.replies, htx ▸ hurgent ▸ hnormal ▸ hs.data⟩

theorem outgoing_occur (k : ReportKind) (n : Nat) (s : State) : outgoing (occur k n s) = outgoing s := by
  obtain ⟨_, _, _, h⟩ := occur_frame k n s
  rw [h]
  rfl

/-- After a device reset the transmitter sends at most a DETACHED cell (R131). -/
theorem detachTransmission_sends {tx : HeadTx} {src : TxSource} {c : Cell}
    (h : detachTransmission tx = .sending src c) : src = .detached := by
  cases tx <;> cases h
  rfl

/-- A device reset leaves no reply and no stored reply, and a DETACHED cell belongs to no queue (R131, R177). -/
theorem outgoingLegal_deviceReset (s : State) : OutgoingLegal (deviceReset s) := by
  rw [deviceReset_eq]
  refine ⟨Nat.zero_le _, .of_nil, .of_unmarked (fun c hc => ?_) (by simp [deviceResetValues]),
    ⟨fun c hc => ?_, fun c hc => ?_⟩⟩
  all_goals cases detachTransmission_sends hc

/-- An IDLE transmitter asks of the replies that none is marked, and nothing of the data queues. -/
theorem OutgoingLegal.of_idle {s : State} (htx : s.headTx = .idle) (hroom : s.replies.length ≤ 4)
    (hmemory : MemoryLegal s.memory) (hreplies : ∀ r ∈ s.replies, r.inTransmission = false) : OutgoingLegal s :=
  ⟨hroom, hmemory, .of_unmarked (fun c hc => by rw [htx] at hc; cases hc) hreplies, htx ▸ .of_idle _ _⟩

/-! ### The events on Tail -/

/-- The close of a cell adds at most to the end of a queue (R105). -/
theorem outgoingLegal_closeCell (o : CellOutcome) (cell : Cell) (s : State) (hs : OutgoingLegal s) :
    OutgoingLegal (closeCell o cell s) := by
  obtain ⟨_, _, h⟩ := releaseHeld_frame s
  rw [closeCell_eq, h]
  exact ⟨hs.room, hs.memory, hs.replies, hs.data.append _ _⟩

theorem outgoingLegal_disposeCell (v : Verdict) (h : Header) (buf : List Byte) (s : State) (hs : OutgoingLegal s) :
    OutgoingLegal (disposeCell v h buf s) := by
  unfold disposeCell
  dsimp only
  refine outgoingLegal_closeCell _ _ _ ?_
  obtain ⟨_, _, _, _, _, h1⟩ := countVerdict_frame v h buf s
  generalize decideOutcome v (countVerdict v h buf s) = o
  obtain ⟨_, _, _, h2⟩ := countOutcome_frame o (countVerdict v h buf s)
  obtain ⟨_, _, _, _, _, h3⟩ := captureCell_frame v o h buf (countOutcome o (countVerdict v h buf s))
  exact hs.congr (by rw [h3, h2, h1]; rfl)

theorem outgoing_failReception (c : Counter) (s : State) : outgoing (failReception c s) = outgoing s := by
  obtain ⟨_, _, _, _, _, h⟩ := failReception_frame c s
  rw [h]
  rfl

theorem outgoingLegal_tailEnd (ok : Nat → List Byte → Bool) (s : State) (hs : OutgoingLegal s) :
    OutgoingLegal (tailEnd ok s) := by
  unfold tailEnd
  split
  · rename_i r _
    split
    · exact hs.congr (outgoing_failReception _ s)
    · rename_i l _
      obtain ⟨_, _, _, _, _, _, h⟩ := reachVerdict_frame r l s
      have hv : OutgoingLegal (reachVerdict r l s).1 := hs.congr (by rw [h]; rfl)
      unfold endReception
      dsimp only
      split
      · exact outgoingLegal_disposeCell _ _ _ _ hv
      · exact hv.congr (outgoing_failReception _ _)
  · exact hs
  · exact hs.congr rfl

/-! ### The grant and the end of a transmission -/

/-- What starts from an idle transmitter and is no reply leaves the replies unmarked. -/
theorem OutgoingLegal.start {s u : State} (hs : OutgoingLegal s) (htx : s.headTx = .idle)
    (hreplies : u.replies = s.replies) (hmemory : u.memory = s.memory) (hu : u.headTx.noReply)
    (hdata : DataHeld u.headTx u.urgent u.normal) : OutgoingLegal u := by
  have hunmarked : ∀ r ∈ u.replies, r.inTransmission = false := by
    rw [hreplies]
    exact hs.replies.unmarked (fun c hc => by rw [htx] at hc; cases hc)
  exact ⟨hreplies ▸ hs.room, hmemory ▸ hs.memory, .of_unmarked hu hunmarked, hdata⟩

section
variable {s : State} (hs : OutgoingLegal s) (htx : s.headTx = .idle)
include hs

theorem outgoingLegal_sendReply (addr : Byte) : OutgoingLegal (sendReply addr s) := by
  unfold sendReply
  split
  · rename_i r rest hq
    have hroom := hs.room
    have hreplies := hs.replies
    rw [hq] at hroom hreplies
    exact ⟨hroom, hs.memory, hreplies.send _, ⟨fun _ h => (by cases h), fun _ h => (by cases h)⟩⟩
  · exact hs

include htx

theorem outgoingLegal_sendUrgent : OutgoingLegal (sendUrgent s) := by
  unfold sendUrgent
  split
  · rename_i c rest hq
    refine hs.start htx rfl rfl (fun _ h => (by cases h)) ⟨fun _ h => ?_, fun _ h => (by cases h)⟩
    cases h
    exact congrArg List.head? hq
  · exact hs

theorem outgoingLegal_sendNormal : OutgoingLegal (sendNormal s) := by
  unfold sendNormal
  split
  · rename_i c rest hq
    refine hs.start htx rfl rfl (fun _ h => (by cases h)) ⟨fun _ h => (by cases h), fun _ h => ?_⟩
    cases h
    exact congrArg List.head? hq
  · exact hs

theorem outgoingLegal_sendReport (addr : Byte) : OutgoingLegal (sendReport addr s) := by
  unfold sendReport
  split
  · exact hs.start htx rfl rfl (fun _ h => (by cases h)) ⟨fun _ h => (by cases h), fun _ h => (by cases h)⟩
  · exact hs.start htx rfl rfl (fun _ h => (by cases h)) ⟨fun _ h => (by cases h), fun _ h => (by cases h)⟩
  · exact hs

/-- A granted data cell heads its queue, and a granted reply is marked (R123, R160). -/
theorem outgoingLegal_grantTo (g : GrantSource) : OutgoingLegal (grantTo g s) := by
  have hy : outgoing (yieldNormal s) = outgoing s := by
    unfold yieldNormal
    split <;> rfl
  have hyield : OutgoingLegal (yieldNormal s) := hs.congr hy
  have hidle : (yieldNormal s).headTx = .idle := (congrArg Prod.fst hy).trans htx
  cases g with
  | reply => exact outgoingLegal_sendReply hyield _
  | urgent => exact outgoingLegal_sendUrgent hyield hidle
  | report => exact outgoingLegal_sendReport hyield hidle _
  | normal => exact outgoingLegal_sendNormal hs htx

end

theorem outgoingLegal_headGrant (s : State) (hs : OutgoingLegal s) : OutgoingLegal (headGrant s) := by
  unfold headGrant
  split
  · rename_i htx
    split
    · split
      · exact outgoingLegal_grantTo hs htx _
      · exact hs
    · exact hs
  · exact hs

/-! ### The end of a transmission -/

/-- The reply in transmission leaves the queue, or the device reset empties it; none is left marked (R126, R175). -/
theorem outgoingLegal_endReply {s : State} (htx : s.headTx = .idle) (hroom : s.replies.length ≤ 4)
    (hmemory : MemoryLegal s.memory) : OutgoingLegal (endReply s) := by
  unfold endReply
  split
  · dsimp only
    split
    · exact outgoingLegal_deviceReset _
    · exact .of_idle htx ((List.length_filter_le _ _).trans hroom) hmemory
        (fun r hr => by simpa using (List.mem_filter.1 hr).2)
  · rename_i hnone
    exact .of_idle htx hroom hmemory (fun r hr => by simpa using List.find?_eq_none.1 hnone r hr)

theorem outgoingLegal_headTxEnd (e : TxEnd) (s : State) (hs : OutgoingLegal s) : OutgoingLegal (headTxEnd e s) := by
  unfold headTxEnd
  split
  · exact hs
  · rename_i src cell htx
    have hcut : outgoing { recordCut .head e cell s with headTx := .idle } =
        (.idle, s.replies, s.memory, s.urgent, s.normal) := by
      cases e <;> rfl
    generalize ({ recordCut .head e cell s with headTx := .idle } : State) = u at hcut
    simp only [outgoing, Prod.mk.injEq] at hcut
    obtain ⟨hidle, hreplies, hmemory, _, _⟩ := hcut
    have hroom : u.replies.length ≤ 4 := hreplies ▸ hs.room
    have hstored : MemoryLegal u.memory := hmemory ▸ hs.memory
    have hunmarked : src ≠ .reply → ∀ r ∈ u.replies, r.inTransmission = false := fun hsrc => by
      rw [hreplies]
      exact hs.replies.unmarked (fun c hc => by rw [htx] at hc; cases hc; exact hsrc rfl)
    cases src with
    | reply => exact outgoingLegal_endReply hidle hroom hstored
    | urgent =>
      obtain ⟨_, _, _, h⟩ := endUrgent_frame e u
      dsimp only
      rw [h]
      exact .of_idle hidle hroom hstored (hunmarked (by decide))
    | normal =>
      obtain ⟨_, _, _, _, h⟩ := endNormal_frame e u
      dsimp only
      rw [h]
      exact .of_idle hidle hroom hstored (hunmarked (by decide))
    | report q => exact .of_idle hidle hroom hstored (hunmarked (by simp))
    | detached => exact .of_idle hidle hroom hstored (hunmarked (by decide))

/-! ### The taking of a request -/

theorem outgoing_executeRequest (code : Byte) (args : List Byte) (s : State) :
    outgoing (executeRequest code args s).st = outgoing s := by
  unfold executeRequest
  split
  · rfl
  · rename_i k _
    split
    · rfl
    · by_cases hk : k = .statsClear
      · subst hk
        rfl
      · obtain ⟨_, _, _, _, _, _, _, _, _, _, _, h⟩ := ownerAnswer_frame hk args s
        rw [h]
        rfl

/-- An unmarked reply that finds a place joins the queue (R152). -/
theorem OutgoingLegal.queue {s : State} (hs : OutgoingLegal s) (hroom : s.replies.length < 4) {r : Reply}
    (hr : r.inTransmission = false) : OutgoingLegal { s with replies := s.replies ++ [r] } :=
  ⟨by simpa using hroom, hs.memory, hs.replies.queue hr, hs.data⟩

theorem OutgoingLegal.store {s : State} (hs : OutgoingLegal s) (m : MemoryRecord) :
    OutgoingLegal { s with memory := storeMemory m s.memory } :=
  ⟨hs.room, hs.memory.store m, hs.replies, hs.data⟩

theorem outgoingLegal_takeAddressed (code tag : Byte) (args : List Byte) (s : State) (hs : OutgoingLegal s) :
    OutgoingLegal (takeAddressed code tag args s) := by
  unfold takeAddressed
  split
  · exact hs.congr rfl
  · split
    · exact hs.congr rfl
    · rename_i hfull
      have hroom : s.replies.length < 4 := Nat.lt_of_not_le hfull
      split
      · rename_i m _
        exact (hs.queue (r := ⟨m.kind, m.tag, m.status, m.results, false, false⟩) hroom rfl).congr rfl
      · unfold executeAddressed
        split
        · exact outgoingLegal_deviceReset s
        · have hst := outgoing_executeRequest code args s
          generalize executeRequest code args s = a at hst
          have hroom' : a.st.replies.length < 4 := by
            rw [show a.st.replies = s.replies from congrArg (fun x => x.2.1) hst]
            exact hroom
          exact (((hs.congr hst).queue (r := ⟨code, tag, a.status, a.results, code == Kind.deviceReset.code, false⟩)
            hroom' rfl).store ⟨tag, code, a.status, a.results⟩).congr rfl

theorem outgoingLegal_takeBroadcast (code : Byte) (args : List Byte) (s : State) (hs : OutgoingLegal s) :
    OutgoingLegal (takeBroadcast code args s) := by
  unfold takeBroadcast
  split
  · exact hs.congr rfl
  · split
    · rename_i k _
      split
      · unfold executeBroadcast
        split
        · exact outgoingLegal_deviceReset s
        · have hst := hs.congr (outgoing_executeRequest k.code args s)
          generalize executeRequest k.code args s = a at hst
          dsimp only
          split
          · exact hst.congr rfl
          · exact hst.congr rfl
      · exact hs.congr rfl
    · exact hs.congr rfl

theorem outgoingLegal_takeRequest (f : Form) (code tag : Byte) (args : List Byte) (s : State) (hs : OutgoingLegal s) :
    OutgoingLegal (takeRequest f code tag args s) := by
  cases f with
  | addressed => exact outgoingLegal_takeAddressed code tag args s hs
  | broadcast => exact outgoingLegal_takeBroadcast code args s hs

/-! ### The events on Head -/

theorem outgoingLegal_takePayload (f : Form) (payload : List Byte) (s : State) (hs : OutgoingLegal s) :
    OutgoingLegal (takePayload f payload s) := by
  unfold takePayload
  split
  · exact outgoingLegal_takeRequest f _ _ _ s hs
  · exact hs.congr rfl

theorem outgoing_joinDownstream (c : Cell) (s : State) : outgoing (joinDownstream c s) = outgoing s := by
  obtain ⟨_, _, h⟩ := joinDownstream_frame c s
  rw [h]
  rfl

theorem outgoingLegal_acceptDownstream (cell : Cell) (s : State) (hs : OutgoingLegal s) :
    OutgoingLegal (acceptDownstream cell s) := by
  unfold acceptDownstream
  dsimp only
  split
  · exact outgoingLegal_takePayload _ _ _ (hs.congr rfl)
  · exact hs.congr (outgoing_joinDownstream _ _)
  · exact outgoingLegal_takePayload _ _ _ (hs.congr (outgoing_joinDownstream _ _))

theorem outgoingLegal_headEnd (ok : Nat → List Byte → Bool) (s : State) (hs : OutgoingLegal s) :
    OutgoingLegal (headEnd ok s) := by
  unfold headEnd
  split
  · dsimp only
    split
    · exact hs.congr rfl
    · split
      · exact outgoingLegal_acceptDownstream _ _ (hs.congr rfl)
      · exact hs.congr rfl
  · exact hs
  · exact hs.congr rfl

/-! ### Every event -/

theorem outgoingLegal_keptByPortParts : KeptByPortParts OutgoingLegal where
  port p x s hs := hs.congr (by cases p <;> rfl)
  start p s hs := by
    cases p with
    | head =>
      obtain ⟨_, h⟩ := headStartOfCell_frame s
      exact hs.congr (by rw [startEvent, h]; rfl)
    | tail =>
      obtain ⟨_, _, _, _, _, h⟩ := tailStartOfCell_frame s
      exact hs.congr (by rw [startEvent, h]; rfl)
  byte p b s hs := by
    cases p with
    | head =>
      obtain ⟨_, _, h⟩ := headByte_frame b s
      exact hs.congr (by rw [byteEvent, h]; rfl)
    | tail =>
      obtain ⟨_, _, _, _, _, _, _, h⟩ := tailByte_frame b s
      exact hs.congr (by rw [byteEvent, h]; rfl)
  stop p s hs := by
    cases p with
    | head => exact outgoingLegal_headEnd _ s hs
    | tail => exact outgoingLegal_tailEnd _ s hs
  fail p s hs := by
    cases p with
    | head => exact outgoingLegal_headEnd (fun _ _ => false) s hs
    | tail => exact outgoingLegal_tailEnd (fun _ _ => false) s hs
  abort p s hs := by
    cases p with
    | head =>
      obtain ⟨_, _, h⟩ := headAbort_frame s
      exact hs.congr (by rw [abortEvent, h]; rfl)
    | tail =>
      obtain ⟨_, _, _, _, _, h⟩ := tailAbort_frame s
      exact hs.congr (by rw [abortEvent, h]; rfl)
  txAbort p s hs := by
    cases p with
    | head => exact outgoingLegal_headTxEnd _ s hs
    | tail =>
      obtain ⟨_, _, _, _, _, h⟩ := tailTxEnd_frame .abort s
      exact hs.congr (by rw [abortTransmission, h]; rfl)
  link n s hs := hs.congr (outgoing_occur _ n s)

theorem outgoingLegal_keptByEvents : KeptByEvents OutgoingLegal where
  pending _ _ hs := hs.congr rfl
  powerOn _ _ := .of_idle rfl (Nat.zero_le _) .of_nil (by simp [State.reset])
  hold _ hs := hs.congr rfl
  freeIndex _ _ hs := hs.congr rfl
  grant := outgoingLegal_headGrant
  start s hs := by
    obtain ⟨_, h⟩ := tailStart_frame s
    exact hs.congr (by rw [h]; rfl)
  headTx := outgoingLegal_headTxEnd
  tailTx e s hs := by
    obtain ⟨_, _, _, _, _, h⟩ := tailTxEnd_frame e s
    exact hs.congr (by rw [h]; rfl)
  symbol := outgoingLegal_keptByPortParts.receive
  detect := outgoingLegal_keptByPortParts.detect
  lose := outgoingLegal_keptByPortParts.lose
  take := outgoingLegal_takeRequest
  refill s hs := by
    obtain ⟨_, _, h⟩ := expireRefill_frame s
    exact hs.congr (by rw [h]; rfl)
  expire q s hs := by
    obtain ⟨_, _, h⟩ := expireSequence_frame q s
    exact hs.congr (by rw [h]; rfl)
  advance _ hs := hs.congr rfl

/-- Settles O57: each kind of event keeps the replies and the cells in transmission legal, and so does every step. -/
theorem stepKeepsRepliesBoundedAndCellsHeld : Obligations.StepKeepsRepliesBoundedAndCellsHeld := by
  intro s t hs he
  rw [← outgoingLegal_iff] at hs ⊢
  exact outgoingLegal_keptByEvents.step s t hs he

end Sys2Proof.Machine
end

section
/-! PROOF. O51: the state right after reset meets every invariant. -/

namespace Sys2Proof.Machine

/-- With no address, no SENT record and empty queues no source offers a cell (R119). -/
theorem selectSource_reset : selectSource State.reset = none := rfl

theorem reportsLegal_reset : reportQueueBounded State.reset ∧ reportsLegal State.reset := by
  refine ⟨⟨by decide, by decide, by decide, List.nodup_nil⟩, ?_, fun r hr => absurd hr List.not_mem_nil,
    fun h => absurd rfl h, Nat.zero_le _⟩
  intro w hw
  rw [List.mem_singleton.1 hw]
  decide

theorem settingsInRange_reset : settingsInRange State.reset := by
  unfold settingsInRange
  decide

/-- A port of a part that RESETN does not hold, right after reset (R199). -/
theorem portLegal_resetValue : portLegal false Port.resetValue := by
  unfold portLegal
  decide

/-- Settles O51: each invariant in turn, by the lemma of its own development where there is one. -/
theorem resetMeetsEveryInvariant : Obligations.ResetMeetsEveryInvariant := by
  obtain ⟨hmeters, hring⟩ := (metersAndRingLegal_iff State.reset).1 (.of_reset rfl)
  have haccount : State.reset.account.Balanced := .of_empty
  have houtgoing : OutgoingLegal State.reset := .of_idle rfl (Nat.zero_le _) .of_nil (by simp [State.reset])
  refine ⟨(account_balanced_iff _).1 haccount, (refsLegal_iff _).1 (refsLegal_of_reset rfl),
    (entriesLegal_iff _).1 (entriesLegal_of_reset rfl), hmeters, hring, reportsLegal_reset,
    (outgoingLegal_iff _).1 houtgoing, ⟨?_, ?_, ?_⟩, ⟨?_, settingsInRange_reset, Nat.zero_le _⟩,
    ⟨portLegal_resetValue, portLegal_resetValue⟩, ?_, ?_⟩
  · exact fun _ _ => selectSource_reset
  · exact fun _ _ => rfl
  · exact ⟨Nat.zero_le _, fun h => by cases h⟩
  · exact fun _ h => by cases h
  · exact fun h => absurd rfl h
  · exact fun h => by cases h

end Sys2Proof.Machine
end

section
/-! PROOF. O7, O28 and O38: DEVICE_RESET, the start of a cell on Tail, and the end of a transmission on Head. -/

namespace Sys2Proof.Machine

/-! ### DEVICE_RESET -/

/-- An assigned part answers DEVICE_RESET with a marked reply and waits for its end (R173). -/
theorem executeAddressed_deviceReset_assigned {s : State} (h : s.nodeAddress ≠ none) (tag : Byte) (args : List Byte) :
    executeAddressed Kind.deviceReset.code tag args s =
      reply Kind.deviceReset.code tag true ⟨{ s with resetPending := true }, .ok, []⟩ := by
  unfold executeAddressed
  rw [if_neg (fun hh => h hh.2), executeRequest_long s (Nat.le_add_left _ _), beq_self_eq_true]
  rfl

/-- An unassigned part resets at the taking (R176). -/
theorem executeAddressed_deviceReset_unassigned {s : State} (h : s.nodeAddress = none) (tag : Byte) (args : List Byte) :
    executeAddressed Kind.deviceReset.code tag args s = afterDeviceReset s := by
  unfold executeAddressed
  rw [if_pos ⟨rfl, h⟩, deviceReset_after]

/-- A broadcast DEVICE_RESET takes effect at the taking (R177). -/
theorem takeBroadcast_deviceReset {s : State} (h : s.resetPending = false) (args : List Byte) :
    takeBroadcast Kind.deviceReset.code args s = afterDeviceReset s := by
  unfold takeBroadcast
  rw [if_neg (by simp [h]), kindOf_code, ← deviceReset_after]
  rfl

/-- Settles O7: the taking of DEVICE_RESET in its two forms, by whether the part has an address. -/
theorem deviceResetWaitsOrTakesEffect : Obligations.DeviceResetWaitsOrTakesEffect := by
  refine ⟨fun tag args s h haddr => ?_, fun tag args s => ⟨fun h haddr => ?_, fun h => ?_⟩⟩
  · refine (exec_requestOf .deviceReset .addressed tag args s h.running).trans (next_settle_congr ?_)
    have hk : Accepts Kind.deviceReset.code tag s := h
    change takeAddressed Kind.deviceReset.code tag args s = _
    rw [takeAddressed_accepted hk, executeAddressed_deviceReset_assigned haddr]
    rfl
  · refine (exec_requestOf .deviceReset .addressed tag args s h.running).trans (next_settle_congr ?_)
    have hk : Accepts Kind.deviceReset.code tag s := h
    change takeAddressed Kind.deviceReset.code tag args s = _
    rw [takeAddressed_accepted hk, executeAddressed_deviceReset_unassigned haddr]
  · exact (exec_requestOf .deviceReset .broadcast tag args s h.running).trans
      (next_settle_congr (takeBroadcast_deviceReset h.noReset args))

/-! ### The start of a cell on Tail -/

/-- A start delimiter outside a cell begins one (R188). -/
theorem receive_startDelimiter {p : Side} {s : State} (hup : (s.port p).link = .up)
    (hpos : (s.port p).position = .between ∨ (s.port p).position = .hunting) :
    receive p .startDelimiter s = beginCell p s := by
  obtain h | h := hpos
  · rw [receive_between hup h]
    rfl
  · rw [receive_hunting hup h]
    rfl

/-- Settles O28: a start delimiter on Tail outside a cell begins one, with or without a free buffer. -/
theorem startOfCellTakesABuffer : Obligations.StartOfCellTakesABuffer := by
  intro s s1 hrun hup hpos hidle hs1
  have hexec : exec .startOfCell s = .next (settle (cellBegun .tail s)) := by
    refine (exec_symbolOf hrun .tail .startDelimiter).trans (next_settle_congr ?_)
    rw [receive_startDelimiter (p := .tail) hup hpos, beginCell_begun .tail s (fun h => by cases h) (fun _ => hidle)]
  rw [hexec, hs1]
  refine ⟨fun hfree => next_settle_congr (if_pos hfree), fun hnone => next_settle_congr (if_neg ?_)⟩
  omega

/-! ### The end of a transmission on Head -/

/-- Settles O38: the end of a transmission by the source of its cell. -/
theorem transmitCompleteTellsTheSource : Obligations.TransmitCompleteTellsTheSource := by
  intro s s1 cell hrun hs1
  subst hs1
  rw [exec_transmitComplete hrun]
  refine ⟨fun htx c rest hq => next_settle_congr ?_, fun htx c rest hq => next_settle_congr ?_,
    fun htx r rest hq hmark hrest => next_settle_congr ?_, fun q htx => next_settle_congr ?_,
    fun htx => next_settle_congr ?_⟩
  all_goals unfold headTxEnd; rw [htx]
  · exact endUrgent_cons (s := { s with headTx := .idle }) hq .complete
  · exact endNormal_cons (s := { s with headTx := .idle }) hq .complete
  · exact endReply_oldest (s := { s with headTx := .idle }) hq hmark hrest
  · rfl
  · rfl

end Sys2Proof.Machine
end

section
/-! PROOF. O43: the symbols of an UP port that neither end a cell nor violate the framing. -/

namespace Sys2Proof.Machine

/-! ### Bytes that reach no point of the header or key -/

/-- A receive side that has no room, or receives no cell, stores nothing (R95, R188; log 9). -/
theorem tailByte_unstored {s : State} (h : ∀ r, s.tailRx = .receiving r → 56 ≤ r.buf.length) (b : Byte) :
    tailByte b s = s := by
  unfold tailByte
  split
  · rename_i r hx
    exact if_neg (Nat.not_lt.2 (h r hx))
  · rfl
  · rfl

theorem headByte_unstored {s : State} (h : ∀ buf, s.headRx = .receiving buf → 56 ≤ buf.length) (b : Byte) :
    headByte b s = s := by
  unfold headByte
  split
  · rename_i buf hx
    exact if_neg (Nat.not_lt.2 (h buf hx))
  · rfl
  · rfl

theorem byteEvent_unstored {p : Side} {s : State}
    (ht : p = .tail → ∀ r, s.tailRx = .receiving r → 56 ≤ r.buf.length)
    (hh : p = .head → ∀ buf, s.headRx = .receiving buf → 56 ≤ buf.length) (b : Byte) : byteEvent p b s = s := by
  cases p with
  | head => exact headByte_unstored (hh rfl) b
  | tail => exact tailByte_unstored (ht rfl) b

/-- A byte on Tail that completes neither the header nor the key is stored (R96). -/
theorem tailByte_stored {r : Reception} {s : State} (hx : s.tailRx = .receiving r) (hroom : r.buf.length < 56)
    (hkey : ∀ l ∈ r.hdr, r.buf.length + 1 ≠ 6 + l.keyBytes) (hheader : r.hdr = none → r.buf.length ≠ 5) (b : Byte) :
    tailByte b s = { s with tailRx := .receiving { r with buf := r.buf ++ [b] } } := by
  unfold tailByte
  rw [hx]
  dsimp only
  rw [if_pos hroom, List.length_append, List.length_singleton]
  cases hr : r.hdr with
  | none =>
    have := hheader hr
    exact if_neg (by omega)
  | some l => exact if_neg (hkey l hr)

/-- A byte on Head that does not complete the header is stored (R193). -/
theorem headByte_stored {buf : List Byte} {s : State} (hx : s.headRx = .receiving buf) (hroom : buf.length < 56)
    (hheader : buf.length ≠ 5) (b : Byte) : headByte b s = { s with headRx := .receiving (buf ++ [b]) } := by
  unfold headByte
  rw [hx]
  dsimp only
  rw [if_pos hroom, List.length_append, List.length_singleton]
  exact if_neg (by omega)

/-! ### O43 -/

/-- A data byte within a cell is counted and handed to the receive side (R188). -/
theorem symbolInCell_data {p : Side} {s : State} (hroom : (s.port p).cellBytes < 56) (b : Byte) :
    symbolInCell p (.data b) s =
      byteEvent p b (s.setPort p { s.port p with cellBytes := (s.port p).cellBytes + 1 }) :=
  if_neg (Nat.not_le_of_lt hroom)

/-- Settles O43: the symbols between cells, while hunting, and within a cell. -/
theorem symbolsAreHandledByPosition : Obligations.SymbolsAreHandledByPosition := by
  intro p b s x hrun hx hup
  subst hx
  have hexec := symbolCommand_running hrun p
  have hcell : (s.port p).position = .inCell → ∀ (y : Symbol) (u : State), symbolInCell p y s = u →
      symbolCommand p y s = .next (settle u) := fun hpos y u hu =>
    (hexec y).trans (next_settle_congr ((receive_inCell hup hpos y).trans hu))
  refine ⟨fun hpos => ?_, fun hpos => ⟨?_, ?_, ?_, ?_⟩, fun hpos _ ht hh => ?_, fun hpos hroom =>
    ⟨fun hdiscard => ?_, fun r hp hr hlen hkey hheader => ?_, fun buf hp hr hlen hheader => ?_⟩⟩
  · exact (hexec .alignment).trans (next_settle_congr (receive_between hup hpos _))
  · exact (hexec .alignment).trans (next_settle_congr (receive_hunting hup hpos _))
  · exact (hexec (.data b)).trans (next_settle_congr (receive_hunting hup hpos _))
  · exact (hexec .violation).trans (next_settle_congr (receive_hunting hup hpos _))
  · exact (exec_symbolOf hrun p .endDelimiter).trans (next_settle_congr (receive_hunting hup hpos _))
  · exact hcell hpos .violation _ (byteEvent_unstored (by simpa using ht) (by simpa using hh) 0)
  · have hnone : ∀ (y : Port) (c : Byte), byteEvent p c (s.setPort p y) = s.setPort p y := fun y c => by
      obtain ⟨rfl, hd⟩ | ⟨rfl, hd⟩ := hdiscard
      · exact tailByte_unstored (by simp [hd]) c
      · exact headByte_unstored (by simp [hd]) c
    exact ⟨hcell hpos (.data b) _ ((symbolInCell_data hroom b).trans (hnone _ b)),
      hcell hpos .violation _ (hnone _ 0)⟩
  · subst hp
    have hstored : ∀ (x : Port) (c : Byte), byteEvent .tail c (s.setPort .tail x) =
        { s with tailPort := x, tailRx := .receiving { r with buf := r.buf ++ [c] } } := fun x c =>
      tailByte_stored (s := s.setPort .tail x) hr hlen hkey hheader c
    exact ⟨hcell hpos (.data b) _ ((symbolInCell_data hroom b).trans (hstored _ b)),
      hcell hpos .violation _ (hstored _ 0)⟩
  · subst hp
    have hstored : ∀ (x : Port) (c : Byte), byteEvent .head c (s.setPort .head x) =
        { s with headPort := x, headRx := .receiving (buf ++ [c]) } := fun x c =>
      headByte_stored (s := s.setPort .head x) hr hlen hheader c
    exact ⟨hcell hpos (.data b) _ ((symbolInCell_data hroom b).trans (hstored _ b)),
      hcell hpos .violation _ (hstored _ 0)⟩

end Sys2Proof.Machine
end

section
/-! PROOF. O44 and O45: framing violations, and the realignment of a port that leaves UP. -/

namespace Sys2Proof.Machine

/-! ### What leaving UP leaves alone -/

theorem abortEvent_port (p q : Side) (s : State) : (abortEvent p s).port q = s.port q := by
  cases p with
  | head =>
    obtain ⟨_, _, h⟩ := headAbort_frame s
    rw [abortEvent, h]
    cases q <;> rfl
  | tail =>
    obtain ⟨_, _, _, _, _, h⟩ := tailAbort_frame s
    rw [abortEvent, h]
    cases q <;> rfl

theorem abortTransmission_port (p q : Side) (s : State) : (abortTransmission p s).port q = s.port q := by
  cases p with
  | head =>
    obtain ⟨hhead, htail, _⟩ := headTxEnd_keeps .abort s
    cases q
    · exact hhead
    · exact htail
  | tail =>
    obtain ⟨htail, hhead, _⟩ := tailTxEnd_keeps .abort s
    cases q
    · exact hhead
    · exact htail

theorem occur_port (k : ReportKind) (n : Nat) (q : Side) (s : State) : (occur k n s).port q = s.port q := by
  obtain ⟨_, _, _, h⟩ := occur_frame k n s
  rw [h]
  cases q <;> rfl

/-- After an abort the receive side of the port is IDLE (R107, R193). -/
theorem abortEvent_idle (p : Side) (s : State) :
    (p = .head → (abortEvent p s).headRx = .idle) ∧ (p = .tail → (abortEvent p s).tailRx = .idle) := by
  refine ⟨fun hp => ?_, fun hp => ?_⟩
  · subst hp
    unfold abortEvent headAbort
    dsimp only
    split
    · rfl
    · assumption
    · rfl
  · subst hp
    unfold abortEvent tailAbort
    dsimp only
    split
    · rfl
    · assumption
    · rfl

/-- The state in which a port that leaves UP begins its realignment: the link state and the pin change first (log 8). -/
def unlinked (p : Side) (after : LinkState) (s : State) : State :=
  s.setPort p { s.port p with
    link := after, run := if after = .aligning then 0 else (s.port p).run, upPin := false }

/-- The first part of a realignment: the abort of a cell in reception (R186). -/
def receptionEnded (p : Side) (after : LinkState) (s : State) : State :=
  if (s.port p).position = .inCell then abortEvent p (unlinked p after s) else unlinked p after s

theorem leaveUp_eq (p : Side) (after : LinkState) (s : State) : leaveUp p after s =
    occur .linkChanged (linkSubject p) (abortTransmission p (receptionEnded p after s)) := rfl

theorem receptionEnded_port (p q : Side) (after : LinkState) (s : State) :
    (receptionEnded p after s).port q = (unlinked p after s).port q := by
  unfold receptionEnded
  split
  · exact abortEvent_port p q _
  · rfl

/-- A port that leaves UP takes its new link state and releases its pin; the other port stands (R186). -/
theorem leaveUp_port (p q : Side) (after : LinkState) (s : State) : (leaveUp p after s).port q =
    if p = q then { s.port p with
      link := after, run := if after = .aligning then 0 else (s.port p).run, upPin := false }
    else s.port q := by
  rw [leaveUp_eq, occur_port, abortTransmission_port, receptionEnded_port, unlinked, State.port_setPort]

/-- A realignment of Head leaves the downstream path alone and its transmitter IDLE (R186). -/
theorem leaveUp_head_keeps (after : LinkState) (s : State) :
    (leaveUp .head after s).downQueue = s.downQueue ∧ (leaveUp .head after s).tailTx = s.tailTx ∧
      (leaveUp .head after s).headTx = .idle := by
  have hended : (receptionEnded .head after s).downQueue = s.downQueue ∧
      (receptionEnded .head after s).tailTx = s.tailTx := by
    obtain ⟨_, _, h⟩ := headAbort_frame (unlinked .head after s)
    unfold receptionEnded
    split
    · rw [abortEvent, h]
      exact ⟨rfl, rfl⟩
    · exact ⟨rfl, rfl⟩
  obtain ⟨_, _, hqueue, htx, hidle⟩ := headTxEnd_keeps .abort (receptionEnded .head after s)
  obtain ⟨_, _, _, h⟩ := occur_frame .linkChanged (linkSubject .head) (headTxEnd .abort (receptionEnded .head after s))
  rw [leaveUp_eq, abortTransmission, h]
  exact ⟨hqueue.trans hended.1, htx.trans hended.2, hidle⟩

/-- A realignment of Tail leaves the upstream queues, the replies, the SENT records and the Head transmitter alone and
its own transmitter IDLE (R186). -/
theorem leaveUp_tail_keeps (after : LinkState) (s : State) :
    (leaveUp .tail after s).urgent = s.urgent ∧ (leaveUp .tail after s).normal = s.normal ∧
      (leaveUp .tail after s).replies = s.replies ∧ (leaveUp .tail after s).sent = s.sent ∧
      (leaveUp .tail after s).headTx = s.headTx ∧ (leaveUp .tail after s).tailTx = .idle := by
  have hended : (receptionEnded .tail after s).urgent = s.urgent ∧ (receptionEnded .tail after s).normal = s.normal ∧
      (receptionEnded .tail after s).replies = s.replies ∧ (receptionEnded .tail after s).sent = s.sent ∧
      (receptionEnded .tail after s).headTx = s.headTx := by
    obtain ⟨_, _, _, _, _, h⟩ := tailAbort_frame (unlinked .tail after s)
    unfold receptionEnded
    split
    · rw [abortEvent, h]
      exact ⟨rfl, rfl, rfl, rfl, rfl⟩
    · exact ⟨rfl, rfl, rfl, rfl, rfl⟩
  obtain ⟨hurgent, hnormal, hreplies, hsent, htx⟩ := hended
  obtain ⟨_, _, hurgent', hnormal', hreplies', hsent', htx', hidle⟩ :=
    tailTxEnd_keeps .abort (receptionEnded .tail after s)
  obtain ⟨_, _, _, h⟩ := occur_frame .linkChanged (linkSubject .tail) (tailTxEnd .abort (receptionEnded .tail after s))
  rw [leaveUp_eq, abortTransmission, h]
  exact ⟨hurgent'.trans hurgent, hnormal'.trans hnormal, hreplies'.trans hreplies, hsent'.trans hsent,
    htx'.trans htx, hidle⟩

/-! ### O45 -/

/-- Settles O45: loss of signal in each of the three link states. -/
theorem lossOfSignalAbortsWhatThePortCarries : Obligations.LossOfSignalAbortsWhatThePortCarries := by
  intro p s x hrun hx
  subst hx
  rw [exec_lossOfSignal hrun]
  refine ⟨fun hlink => next_settle_congr ?_, fun hlink => next_settle_congr ?_, fun hlink =>
    ⟨leaveUp p .down s, leaveUp_realigned p .down s, next_settle_congr ?_, ?_, fun hp => ?_, fun hp => ?_⟩⟩
  · unfold loseSignal
    rw [hlink]
  · unfold loseSignal
    rw [hlink]
  · unfold loseSignal
    rw [hlink]
  · rw [leaveUp_port, if_pos rfl]
    rfl
  · subst hp
    exact ⟨leaveUp_port .head .tail .down s, leaveUp_head_keeps .down s⟩
  · subst hp
    exact ⟨leaveUp_port .tail .head .down s, leaveUp_tail_keeps .down s⟩

/-! ### The receive sides after a realignment -/

theorem headTxEnd_headRx (e : TxEnd) (s : State) : (headTxEnd e s).headRx = s.headRx := by
  unfold headTxEnd
  split
  · rfl
  · rename_i src cell _
    have hcut : ({ recordCut .head e cell s with headTx := .idle } : State).headRx = s.headRx := by cases e <;> rfl
    rw [← hcut]
    generalize ({ recordCut .head e cell s with headTx := .idle } : State) = u
    cases src with
    | urgent =>
      obtain ⟨_, _, _, h⟩ := endUrgent_frame e u
      dsimp only
      rw [h]
    | normal =>
      obtain ⟨_, _, _, _, h⟩ := endNormal_frame e u
      dsimp only
      rw [h]
    | reply =>
      obtain ⟨_, h | h⟩ := endReply_cases u
      · dsimp only
        rw [h]
      · dsimp only
        rw [h]
        rfl
    | report q => rfl
    | detached => rfl

/-- A port that leaves UP within a cell has no cell in reception after it (R186). -/
theorem leaveUp_idle {p : Side} {s : State} (hpos : (s.port p).position = .inCell) (after : LinkState) :
    (p = .head → (leaveUp p after s).headRx = .idle) ∧ (p = .tail → (leaveUp p after s).tailRx = .idle) := by
  obtain ⟨hhead, htail⟩ := abortEvent_idle p (unlinked p after s)
  have hended : receptionEnded p after s = abortEvent p (unlinked p after s) := if_pos hpos
  rw [leaveUp_eq, hended]
  obtain ⟨_, _, _, h⟩ := occur_frame .linkChanged (linkSubject p)
    (abortTransmission p (abortEvent p (unlinked p after s)))
  rw [h]
  refine ⟨fun hp => ?_, fun hp => ?_⟩
  · subst hp
    exact (headTxEnd_headRx _ _).trans (hhead rfl)
  · subst hp
    obtain ⟨_, _, _, _, _, h'⟩ := tailTxEnd_frame .abort (abortEvent .tail (unlinked .tail after s))
    rw [abortTransmission, h']
    exact htail rfl

/-! ### What the close of an event leaves alone -/

theorem settle_keeps (s : State) : (∀ q, (settle s).port q = s.port q) ∧ (settle s).headRx = s.headRx ∧
    (settle s).tailRx = s.tailRx := by
  obtain ⟨_, _, _, _, _, _, _, _, h⟩ := settle_frame s
  rw [h]
  exact ⟨fun q => by cases q <;> rfl, rfl, rfl⟩

/-- No transmission starts on a port that is not UP (R120, R196). -/
theorem settle_headTx {s : State} (h : s.headPort.link ≠ .up) : (settle s).headTx = s.headTx := by
  have hgrant : headGrant s = s := by
    unfold headGrant
    split
    · exact if_neg h
    · rfl
  obtain ⟨_, hstart⟩ := tailStart_frame (headGrant s)
  rw [settle, hstart, hgrant]

theorem settle_tailTx {s : State} (h : s.tailPort.link ≠ .up) : (settle s).tailTx = s.tailTx := by
  obtain ⟨_, _, _, _, _, _, _, hgrant⟩ := headGrant_frame s
  have hstart : tailStart (headGrant s) = headGrant s := by
    refine if_neg (fun hh => h ?_)
    have hlink := hh.2.1
    rwa [hgrant] at hlink
  rw [settle, hstart, hgrant]

/-! ### Framing violations -/

/-- The port after a framing violation that does not leave UP: the count has risen and the position has moved (R189). -/
def violated (p : Side) (after : FramingPosition) (s : State) : State :=
  s.setPort p { s.port p with violations := (s.port p).violations + 1, position := after }

section
variable {p : Side} {s : State}

theorem framingViolation_third (h : 2 ≤ (s.port p).violations) (after : FramingPosition) :
    framingViolation p after s = leaveUp p .aligning s := if_pos h

theorem framingViolation_early (h : (s.port p).violations < 2) (after : FramingPosition) :
    framingViolation p after s =
      if (s.port p).position = .inCell then failEvent p (violated p after s) else violated p after s :=
  if_neg (Nat.not_le.2 h)

/-- An early framing violation leaves the port UP, its count raised and its position moved (R189). -/
theorem framingViolation_port (h : (s.port p).violations < 2) (after : FramingPosition) :
    (framingViolation p after s).port p =
      { s.port p with violations := (s.port p).violations + 1, position := after } := by
  rw [framingViolation_early h]
  split
  · rw [failEvent_port, violated, State.port_setPort_same]
  · rw [violated, State.port_setPort_same]

theorem startEvent_port (p : Side) (s : State) : (startEvent p s).port p = s.port p := by
  cases p with
  | head =>
    obtain ⟨_, h⟩ := headStartOfCell_frame s
    rw [startEvent, h]
    rfl
  | tail =>
    obtain ⟨_, _, _, _, _, h⟩ := tailStartOfCell_frame s
    rw [startEvent, h]
    rfl

theorem beginCell_port (p : Side) (s : State) : (beginCell p s).port p =
    { s.port p with position := .inCell, cellBytes := 0, cellBad := false } := by
  rw [beginCell, startEvent_port, State.port_setPort_same]

variable {y : Symbol} {after : FramingPosition}

/-- A start delimiter is a framing violation within a cell alone, and it leads into a cell (R188). -/
theorem violationTo_startDelimiter {x : Port} (h : violationTo x .startDelimiter = some after) :
    x.position = .inCell ∧ after = .inCell := by
  unfold violationTo at h
  split at h <;> simp_all

/-- A symbol that violates the framing is handled as one; a start delimiter then begins a cell if the port is still UP
(R188, R189). -/
theorem receive_violation (hup : (s.port p).link = .up) (hv : violationTo (s.port p) y = some after) :
    receive p y s =
      if y = .startDelimiter ∧ ((framingViolation p after s).port p).link = .up then
        beginCell p (framingViolation p after s)
      else framingViolation p after s := by
  cases hpos : (s.port p).position with
  | between =>
    rw [receive_between hup hpos]
    cases y <;> simp only [violationTo, hpos] at hv <;> cases hv <;> simp [symbolBetween]
  | inCell =>
    rw [receive_inCell hup hpos]
    cases y with
    | data b =>
      simp only [violationTo, hpos] at hv
      split at hv
      · rename_i hfull
        cases hv
        simp [symbolInCell, hfull]
      · cases hv
    | startDelimiter =>
      obtain ⟨_, rfl⟩ := violationTo_startDelimiter hv
      simp [symbolInCell]
    | alignment =>
      simp only [violationTo, hpos] at hv
      cases hv
      simp [symbolInCell]
    | endDelimiter => simp [violationTo, hpos] at hv
    | violation => simp [violationTo, hpos] at hv
  | hunting => cases y <;> simp [violationTo, hpos] at hv

/-- The third framing violation leaves UP, and no cell begins (R189). -/
theorem receive_violation_third (hup : (s.port p).link = .up) (hv : violationTo (s.port p) y = some after)
    (h : 2 ≤ (s.port p).violations) : receive p y s = leaveUp p .aligning s := by
  rw [receive_violation hup hv, framingViolation_third h, leaveUp_port, if_pos rfl]
  exact if_neg (fun hh => by cases hh.2)

/-- An earlier one fails the cell in reception, and a start delimiter begins the next (R98, R189). -/
theorem receive_violation_early (hup : (s.port p).link = .up) (hv : violationTo (s.port p) y = some after)
    (h : (s.port p).violations < 2) : receive p y s =
      if y = .startDelimiter then beginCell p (framingViolation p after s) else framingViolation p after s := by
  rw [receive_violation hup hv, framingViolation_port h]
  simp only [hup, and_true]

end

/-! ### O44 -/

/-- Settles O44: the first two framing violations in a row, and the third. -/
theorem thirdFramingViolationLeavesUp : Obligations.ThirdFramingViolationLeavesUp := by
  intro p y s x after hrun hx hup hv
  subst hx
  rw [exec_symbolOf hrun p y]
  refine ⟨fun h => ⟨_, rfl, ?_⟩, fun h s1 hs1 => ⟨fun hpos => next_settle_congr ?_, fun hpos =>
      ⟨failEvent p (violated p after s), ?_, next_settle_congr ?_⟩⟩,
    fun h => ⟨leaveUp p .aligning s, leaveUp_realigned p .aligning s,
      next_settle_congr (receive_violation_third hup hv h)⟩, fun h => ⟨_, rfl, ?_⟩⟩
  · obtain ⟨hport, _⟩ := settle_keeps (receive p y s)
    rw [hport, receive_violation_early hup hv h]
    split
    · rename_i hy
      subst hy
      obtain ⟨_, rfl⟩ := violationTo_startDelimiter hv
      rw [beginCell_port, framingViolation_port h]
      exact ⟨hup, rfl, rfl, rfl⟩
    · rw [framingViolation_port h]
      exact ⟨hup, rfl, rfl, rfl⟩
  · have hy : y ≠ .startDelimiter := fun hy => by
      subst hy
      exact hpos (violationTo_startDelimiter hv).1
    rw [receive_violation_early hup hv h, if_neg hy, framingViolation_early h, if_neg hpos, hs1]
    rfl
  · rw [hs1]
    exact failEvent_failed p _
  · obtain ⟨hhead, htail⟩ := failEvent_idle p (violated p after s)
    rw [receive_violation_early hup hv h, framingViolation_early h, if_pos hpos, beginCell_begun p _ hhead htail]
  · obtain ⟨hport, hheadRx, htailRx⟩ := settle_keeps (leaveUp p .aligning s)
    have hleft := leaveUp_port p p .aligning s
    rw [if_pos rfl] at hleft
    rw [receive_violation_third hup hv h, hport, hleft]
    refine ⟨rfl, rfl, rfl, fun hp => ?_, fun hp => ?_⟩
    · subst hp
      have hnotUp : (leaveUp .head .aligning s).headPort.link ≠ .up := fun hh => by
        have := (congrArg Port.link hleft).symm.trans hh
        cases this
      obtain ⟨_, _, htx⟩ := leaveUp_head_keeps .aligning s
      exact ⟨(settle_headTx hnotUp).trans htx, fun hpos => hheadRx.trans ((leaveUp_idle hpos .aligning).1 rfl)⟩
    · subst hp
      have hnotUp : (leaveUp .tail .aligning s).tailPort.link ≠ .up := fun hh => by
        have := (congrArg Port.link hleft).symm.trans hh
        cases this
      obtain ⟨_, _, _, _, _, htx⟩ := leaveUp_tail_keeps .aligning s
      exact ⟨(settle_tailTx hnotUp).trans htx, fun hpos => htailRx.trans ((leaveUp_idle hpos .aligning).2 rfl)⟩

end Sys2Proof.Machine
end

section
/-! PROOF. O4, O35, O36 and O37: what the four sources offer, which of them a grant decision selects, and what the grant
of each leaves. -/

namespace Sys2Proof.Machine

/-! ### Offers (R119) -/

theorem offers_reply_iff (s : State) : offers .reply s = true ↔ s.nodeAddress ≠ none ∧ s.replies ≠ [] := by
  simp [offers, Option.isSome_iff_ne_none]

theorem offers_urgent_iff (s : State) : offers .urgent s = true ↔ s.urgent ≠ [] := by simp [offers]

theorem offers_normal_iff (s : State) : offers .normal s = true ↔ s.normal ≠ [] := by simp [offers]

/-- A due record is named before any WAITING one (R139). -/
theorem namedReport_resend {s : State} {before after : List SentReport} {r : SentReport}
    (hsent : s.sent = before ++ r :: after) (hdue : r.cond = .due) (hfirst : ∀ x ∈ before, x.cond ≠ .due) :
    namedReport s = some (.resend r) := by
  have hfind : s.sent.find? (fun r => r.cond == .due) = some r := by
    rw [hsent, List.find?_eq_some_iff_append]
    exact ⟨by simp [hdue], before, after, rfl, by simpa using hfirst⟩
  unfold namedReport
  rw [hfind]

/-- With no record due, the oldest WAITING one is named while the address is assigned and the window has room (R139). -/
theorem namedReport_first {s : State} (hnone : ∀ x ∈ s.sent, x.cond ≠ .due) : namedReport s =
    if s.nodeAddress ≠ none ∧ s.sent.length < 4 then s.waiting.head?.map .first else none := by
  have hfind : s.sent.find? (fun r => r.cond == .due) = none := by simpa using hnone
  unfold namedReport
  rw [hfind]
  exact if_congr (by rw [Bool.and_eq_true, Option.isSome_iff_ne_none, decide_eq_true_eq]; rfl) rfl rfl

theorem offers_report_iff_named (s : State) :
    offers .report s = true ↔ s.nodeAddress ≠ none ∧ (namedReport s).isSome = true := by
  simp [offers, Option.isSome_iff_ne_none]

theorem offers_report_iff (s : State) : offers .report s = true ↔ s.nodeAddress ≠ none ∧
    ((∃ r ∈ s.sent, r.cond = .due) ∨ (s.sent.length < 4 ∧ s.waiting ≠ [])) := by
  rw [offers_report_iff_named]
  refine and_congr_right fun haddr => ?_
  by_cases hdue : ∃ r ∈ s.sent, r.cond = .due
  · have hnamed : (namedReport s).isSome = true := by
      unfold namedReport
      split
      · rfl
      · rename_i hfind
        obtain ⟨r, hr, hcond⟩ := hdue
        exact absurd hcond (by simpa using List.find?_eq_none.1 hfind r hr)
    simp only [hnamed, hdue, true_or]
  · rw [namedReport_first (fun x hx hcond => hdue ⟨x, hx, hcond⟩)]
    by_cases hroom : s.sent.length < 4
    · simp [haddr, hroom, hdue, List.isSome_head?]
    · simp [hroom, hdue]

/-! ### The selection (R121) -/

/-- Settles O35: the guard first, then the four sources in their order. -/
theorem grantSelectsInOrderWithTheGuard : Obligations.GrantSelectsInOrderWithTheGuard := by
  intro s R U P N G hR hU hP hN hG
  obtain rfl := propext (hR.trans (offers_reply_iff s).symm)
  obtain rfl := propext (hU.trans (offers_urgent_iff s).symm)
  obtain rfl := propext (hP.trans (offers_report_iff s).symm)
  obtain rfl := propext (hN.trans (offers_normal_iff s).symm)
  obtain rfl := propext hG
  unfold selectSource
  simp only [Bool.and_eq_true, decide_eq_true_eq]
  by_cases hguard : offers .normal s = true ∧ s.settings.starvationLimit ≤ s.starvation
  · rw [if_pos hguard]
    simp [hguard]
  rw [if_neg hguard]
  by_cases hreply : offers .reply s = true
  · rw [if_pos hreply]
    simp [hguard, hreply]
  rw [if_neg hreply]
  by_cases hurgent : offers .urgent s = true
  · rw [if_pos hurgent]
    simp [hguard, hreply, hurgent]
  rw [if_neg hurgent]
  by_cases hreport : offers .report s = true
  · rw [if_pos hreport]
    simp [hguard, hreply, hurgent, hreport]
  rw [if_neg hreport]
  by_cases hnormal : offers .normal s = true
  · rw [if_pos hnormal]
    simp [hreply, hurgent, hreport, hnormal]
  · rw [if_neg hnormal]
    simp [hreply, hurgent, hreport, hnormal]

/-- A source that a decision selects offers a cell (R121). -/
theorem offers_of_selectSource {s : State} {g : GrantSource} (h : selectSource s = some g) : offers g s = true := by
  obtain ⟨hnormal, hreply, hurgent, hreport, _⟩ :=
    grantSelectsInOrderWithTheGuard s _ _ _ _ _ Iff.rfl Iff.rfl Iff.rfl Iff.rfl Iff.rfl
  cases g with
  | reply => exact (offers_reply_iff s).2 (hreply.1 h).1
  | urgent => exact (offers_urgent_iff s).2 (hurgent.1 h).1
  | report => exact (offers_report_iff s).2 (hreport.1 h).1
  | normal => exact (offers_normal_iff s).2 (hnormal.1 h).1

/-- Another source is granted before a normal cell only while the count is below its limit (R121, R122). -/
theorem starvation_lt_of_selectSource {s : State} {g : GrantSource} (h : selectSource s = some g) (hg : g ≠ .normal)
    (hqueue : s.normal ≠ []) : s.starvation < s.settings.starvationLimit := by
  obtain ⟨hnormal, _⟩ := grantSelectsInOrderWithTheGuard s _ _ _ _ _ Iff.rfl Iff.rfl Iff.rfl Iff.rfl Iff.rfl
  by_contra hlimit
  have hguard := hnormal.2 ⟨hqueue, .inl (Nat.le_of_not_lt hlimit)⟩
  exact hg (Option.some.inj (h.symm.trans hguard))

/-! ### The grant of each source (R122, R123) -/

/-- The starvation count after a grant to another source than the normal one (R122). -/
def yieldedCount (s : State) : Nat := if s.normal = [] then s.starvation else s.starvation + 1

theorem yieldNormal_eq (s : State) : yieldNormal s = { s with starvation := yieldedCount s } := by
  unfold yieldNormal yieldedCount
  simp only [List.isEmpty_iff]
  split <;> rfl

theorem grantTo_reply {s : State} {a : Byte} {r : Reply} {rest : List Reply} (haddr : s.nodeAddress = some a)
    (hq : s.replies = r :: rest) : grantTo .reply s = { s with
      headTx := .sending .reply (replyCell a r)
      replies := { r with inTransmission := true } :: rest
      starvation := yieldedCount s } := by
  simp only [grantTo, yieldNormal_eq, sendReply, hq, haddr, addressCode]

theorem grantTo_urgent {s : State} {c : Cell} {rest : List Cell} (hq : s.urgent = c :: rest) :
    grantTo .urgent s = { s with headTx := .sending .urgent c, starvation := yieldedCount s } := by
  simp only [grantTo, yieldNormal_eq, sendUrgent, hq]

theorem grantTo_normal {s : State} {c : Cell} {rest : List Cell} (hq : s.normal = c :: rest) :
    grantTo .normal s = { s with headTx := .sending .normal c, starvation := 0 } := by
  simp only [grantTo, sendNormal, hq]

/-- The count plays no part in what the report unit names (R139). -/
theorem grantTo_report_eq {s : State} {a : Byte} {n : Named} (haddr : s.nodeAddress = some a)
    (hnamed : namedReport s = some n) : grantTo .report s = sendReport a { s with starvation := yieldedCount s } ∧
      namedReport { s with starvation := yieldedCount s } = some n :=
  ⟨by rw [grantTo, yieldNormal_eq, haddr]; rfl, hnamed⟩

theorem grantTo_report_resend {s : State} {a : Byte} {r : SentReport} (haddr : s.nodeAddress = some a)
    (hnamed : namedReport s = some (.resend r)) : grantTo .report s = { s with
      sent := changeSent r.seq SentReport.resent s.sent
      lostSinceSent := 0
      starvation := yieldedCount s
      headTx := .sending (.report r.seq) (reportCell a r.resent s.lostSinceSent) } := by
  obtain ⟨hgrant, hnamed⟩ := grantTo_report_eq haddr hnamed
  rw [hgrant, sendReport, hnamed]

theorem grantTo_report_first {s : State} {a q : Byte} {w : WaitingReport} {rest : List WaitingReport}
    (haddr : s.nodeAddress = some a) (hnamed : namedReport s = some (.first w)) (hw : s.waiting = w :: rest)
    (hq : freeSequence (s.sent.map SentReport.seq) s.sent.length s.nextSequence = q) : grantTo .report s = { s with
      waiting := rest
      sent := s.sent ++ [firstSend w q]
      nextSequence := q + 1
      lostSinceSent := 0
      starvation := yieldedCount s
      headTx := .sending (.report q) (reportCell a (firstSend w q) s.lostSinceSent) } := by
  obtain ⟨hgrant, hnamed⟩ := grantTo_report_eq haddr hnamed
  rw [hgrant, sendReport, hnamed]
  simp only [hq, hw, List.drop_one, List.tail_cons]

/-- The source that is granted sends its cell, and the count moves (R122, R123). -/
theorem grantTo_of_offers {s : State} {g : GrantSource} (h : offers g s = true) : ∃ src cell,
    (grantTo g s).headTx = .sending src cell ∧
      (grantTo g s).starvation = if g = .normal then 0 else yieldedCount s := by
  cases g with
  | reply =>
    obtain ⟨haddr, hreplies⟩ := (offers_reply_iff s).1 h
    obtain ⟨a, ha⟩ := Option.ne_none_iff_exists'.1 haddr
    obtain ⟨r, rest, hq⟩ := List.exists_cons_of_ne_nil hreplies
    rw [grantTo_reply ha hq]
    exact ⟨_, _, rfl, rfl⟩
  | urgent =>
    obtain ⟨c, rest, hq⟩ := List.exists_cons_of_ne_nil ((offers_urgent_iff s).1 h)
    rw [grantTo_urgent hq]
    exact ⟨_, _, rfl, rfl⟩
  | report =>
    obtain ⟨haddr, hnamed⟩ := (offers_report_iff_named s).1 h
    obtain ⟨a, ha⟩ := Option.ne_none_iff_exists'.1 haddr
    obtain ⟨n, hn⟩ := Option.isSome_iff_exists.1 hnamed
    obtain ⟨hgrant, hn⟩ := grantTo_report_eq ha hn
    rw [hgrant, sendReport, hn]
    cases n <;> exact ⟨_, _, rfl, rfl⟩
  | normal =>
    obtain ⟨c, rest, hq⟩ := List.exists_cons_of_ne_nil ((offers_normal_iff s).1 h)
    rw [grantTo_normal hq]
    exact ⟨_, _, rfl, rfl⟩

/-! ### The grant decision (R120) -/

theorem headGrant_none {s : State} (h : s.headTx ≠ .idle ∨ s.headPort.link ≠ .up ∨ selectSource s = none) :
    headGrant s = s := by
  unfold headGrant
  split
  · rename_i hidle
    split
    · rename_i hup
      rw [(h.resolve_left (· hidle)).resolve_left (· hup)]
    · rfl
  · rfl

theorem headGrant_some {s : State} {g : GrantSource} (hidle : s.headTx = .idle) (hup : s.headPort.link = .up)
    (hg : selectSource s = some g) : headGrant s = grantTo g s := by
  unfold headGrant
  rw [hidle, if_pos hup, hg]

theorem exec_transmitStart {s : State} (h : s.resetHeld = false) : exec .transmitStart s = .next (headGrant s) :=
  congrArg Host.Outcome.next (unlessHeld_running h _)

theorem exec_tailTransmitStart {s : State} (h : s.resetHeld = false) :
    exec .tailTransmitStart s = .next (tailStart s) :=
  congrArg Host.Outcome.next (unlessHeld_running h _)

/-- Settles O4: RESETN does not hold the part between the two starts either. -/
theorem closeOfAnEventIsTheTwoStarts : Obligations.CloseOfAnEventIsTheTwoStarts := by
  intro s hrun
  obtain ⟨_, _, _, _, _, _, _, hgrant⟩ := headGrant_frame s
  have hrun' : (headGrant s).resetHeld = false := by
    rw [hgrant]
    exact hrun
  exact ⟨headGrant s, exec_transmitStart hrun, exec_tailTransmitStart hrun'⟩

/-- Settles O36: the grant of each source that has a cell of its own to send, and the decisions that grant none. -/
theorem transmitStartGrantsTheSelectedCell : Obligations.TransmitStartGrantsTheSelectedCell := by
  refine ⟨fun s hrun hno => ?_, fun s count hrun hidle hup hcount => ?_⟩
  · rw [exec_transmitStart hrun, headGrant_none (hno.imp_right .inl)]
  obtain rfl : count = yieldedCount s := hcount
  rw [exec_transmitStart hrun]
  refine ⟨fun hg => ?_, fun hg => ?_, fun hg => ?_, fun hg => ?_⟩
  · rw [headGrant_none (.inr (.inr hg))]
  · obtain ⟨c, rest, hq⟩ := List.exists_cons_of_ne_nil ((offers_urgent_iff s).1 (offers_of_selectSource hg))
    exact ⟨c, by rw [hq]; rfl, by rw [headGrant_some hidle hup hg, grantTo_urgent hq]⟩
  · obtain ⟨c, rest, hq⟩ := List.exists_cons_of_ne_nil ((offers_normal_iff s).1 (offers_of_selectSource hg))
    exact ⟨c, by rw [hq]; rfl, by rw [headGrant_some hidle hup hg, grantTo_normal hq]⟩
  · obtain ⟨haddr, hreplies⟩ := (offers_reply_iff s).1 (offers_of_selectSource hg)
    obtain ⟨a, ha⟩ := Option.ne_none_iff_exists'.1 haddr
    obtain ⟨r, rest, hq⟩ := List.exists_cons_of_ne_nil hreplies
    have hlength : (replyPayload r).length = 3 + r.results.length := by
      simp only [replyPayload, List.length_append, List.length_cons, List.length_nil]
    refine ⟨a, r, rest, ha, hq, ?_⟩
    rw [headGrant_some hidle hup hg, grantTo_reply ha hq, ← hlength]
    rfl

/-! ### The report that is sent (R139 to R141) -/

/-- A first send passes over the sequences in use, and over no other (R140). -/
theorem freeSequence_spec (used : List Byte) (fuel : Nat) (q : Byte) : ∃ skipped ≤ fuel,
    freeSequence used fuel q = q + BitVec.ofNat 8 skipped ∧ (∀ j < skipped, q + BitVec.ofNat 8 j ∈ used) ∧
      (skipped < fuel → q + BitVec.ofNat 8 skipped ∉ used) := by
  induction fuel generalizing q with
  | zero => exact ⟨0, le_rfl, by simp [freeSequence], by simp, by simp⟩
  | succ fuel ih =>
    by_cases hused : q ∈ used
    · obtain ⟨skipped, hle, hval, hbefore, hfree⟩ := ih (q + 1)
      have hshift : ∀ j, q + 1 + BitVec.ofNat 8 j = q + BitVec.ofNat 8 (j + 1) := fun j => by
        rw [BitVec.ofNat_add]
        ac_rfl
      refine ⟨skipped + 1, Nat.succ_le_succ hle, ?_, fun j hj => ?_, fun hlt => ?_⟩
      · rw [← hshift, ← hval]
        simp [freeSequence, hused]
      · cases j with
        | zero => simpa using hused
        | succ j =>
          rw [← hshift]
          exact hbefore j (Nat.lt_of_succ_lt_succ hj)
      · rw [← hshift]
        exact hfree (Nat.lt_of_succ_lt_succ hlt)
    · exact ⟨0, Nat.zero_le _, by simp [freeSequence, hused], by simp, by simpa using hused⟩

/-- Fewer than 256 values in a row are as many as they are, so a shorter list does not hold them all. -/
theorem exists_not_mem_of_length_lt {used : List Byte} {n : Nat} (hlt : used.length < n) (hn : n ≤ 256) (q : Byte) :
    ∃ j < n, q + BitVec.ofNat 8 j ∉ used := by
  by_contra hall
  push Not at hall
  have hnodup : ((List.range n).map fun j => q + BitVec.ofNat 8 j).Nodup := by
    refine List.nodup_range.map_on fun i hi j hj hij => ?_
    rw [List.mem_range] at hi hj
    have h := congrArg BitVec.toNat (add_left_cancel hij)
    simp only [BitVec.toNat_ofNat] at h
    omega
  have hsub : ((List.range n).map fun j => q + BitVec.ofNat 8 j) ⊆ used := by
    intro x hx
    obtain ⟨j, hj, rfl⟩ := List.mem_map.1 hx
    exact hall j (List.mem_range.1 hj)
  have hle := (hnodup.subperm hsub).length_le
  rw [List.length_map, List.length_range] at hle
  omega

/-- With as many tries as there are sequences in use, the sequence of a first send is none of them (R140). -/
theorem freeSequence_free {used : List Byte} (hlen : used.length < 256) (q : Byte) : ∃ skipped ≤ used.length,
    freeSequence used used.length q = q + BitVec.ofNat 8 skipped ∧ (∀ j < skipped, q + BitVec.ofNat 8 j ∈ used) ∧
      q + BitVec.ofNat 8 skipped ∉ used := by
  obtain ⟨skipped, hle, hval, hbefore, hfree⟩ := freeSequence_spec used used.length q
  refine ⟨skipped, hle, hval, hbefore, ?_⟩
  obtain hlt | rfl := hle.lt_or_eq
  · exact hfree hlt
  · obtain ⟨j, hj, hnot⟩ := exists_not_mem_of_length_lt (Nat.lt_succ_self used.length) hlen q
    obtain hj | rfl := (Nat.le_of_lt_succ hj).lt_or_eq
    · exact absurd (hbefore j hj) hnot
    · exact hnot

/-- The one record of a sequence changes (R140, R142). -/
theorem changeSent_of_unique {before after : List SentReport} {r : SentReport} (f : SentReport → SentReport)
    (hunique : ∀ x ∈ before ++ after, x.seq ≠ r.seq) :
    changeSent r.seq f (before ++ r :: after) = before ++ f r :: after := by
  have hkeep : ∀ l : List SentReport, (∀ x ∈ l, x.seq ≠ r.seq) → changeSent r.seq f l = l := fun l hl =>
    (List.map_congr_left fun x hx => if_neg (hl x hx)).trans (List.map_id _)
  have hbefore := hkeep before fun x hx => hunique x (List.mem_append_left _ hx)
  have hafter := hkeep after fun x hx => hunique x (List.mem_append_right _ hx)
  unfold changeSent at hbefore hafter ⊢
  rw [List.map_append, List.map_cons, hbefore, hafter, if_pos rfl]

/-- Settles O37: the record that is named, a due one or the oldest WAITING one, and the grant of the report source. -/
theorem transmitStartSendsTheNamedReport : Obligations.TransmitStartSendsTheNamedReport := by
  intro s count a hrun hidle hup hcount ha hg hwindow
  obtain rfl : count = yieldedCount s := hcount
  rw [exec_transmitStart hrun, headGrant_some hidle hup hg]
  refine ⟨fun before after r hsent hdue hfirst hunique => ?_, fun hnone => ?_⟩
  · rw [grantTo_report_resend ha (namedReport_resend hsent hdue hfirst), hsent, changeSent_of_unique _ hunique]
    rfl
  · obtain ⟨haddr, hoffer⟩ := (offers_report_iff s).1 (offers_of_selectSource hg)
    obtain ⟨hroom, hwaiting⟩ := hoffer.resolve_left fun ⟨r, hr, hdue⟩ => hnone r hr hdue
    obtain ⟨w, rest, hw⟩ := List.exists_cons_of_ne_nil hwaiting
    have hnamed : namedReport s = some (.first w) := by
      rw [namedReport_first hnone, if_pos ⟨haddr, hroom⟩, hw]
      rfl
    obtain ⟨skipped, hle, hq, hbefore, hfree⟩ := freeSequence_free (used := s.sent.map SentReport.seq)
      (by rw [List.length_map]; omega) s.nextSequence
    rw [List.length_map] at hle hq
    refine ⟨w, rest, skipped, _, hw, hle, rfl, fun x hx hseq => hfree (hseq ▸ List.mem_map_of_mem hx),
      fun j hj => List.mem_map.1 (hbefore j hj), ?_⟩
    rw [grantTo_report_first ha hnamed hw hq]
    rfl

end Sys2Proof.Machine
end

section
/-! PROOF, the shared layer of address, settings, starvation count and downstream path: Tail's receive side and the
report unit reach none of them, so a property of these needs only the events that do. -/

namespace Sys2Proof.Machine

/-- The node address, the settings, the starvation count and the downstream path. -/
def control (s : State) : Option Byte × Settings × Nat × List Cell × TailTx :=
  (s.nodeAddress, s.settings, s.starvation, s.downQueue, s.tailTx)

theorem control_occur (k : ReportKind) (n : Nat) (s : State) : control (occur k n s) = control s := by
  obtain ⟨_, _, _, h⟩ := occur_frame k n s
  rw [h]
  rfl

theorem control_tailEnd (ok : Nat → List Byte → Bool) (s : State) : control (tailEnd ok s) = control s := by
  obtain ⟨_, _, _, _, _, _, _, _, _, _, _, _, _, _, h⟩ := tailEnd_frame ok s
  rw [h]
  rfl

/-- The events that reach the address, the settings, the starvation count or the downstream path. -/
structure KeptByControlParts (Inv : State → Prop) : Prop where
  congr : ∀ {s u : State}, Inv s → control u = control s → Inv u
  powerOn : Inv State.reset
  reset : ∀ s : State, Inv s → Inv (deviceReset s)
  owner : ∀ (k : Kind) (args : List Byte) (s : State), Inv s → Inv (ownerAnswer k args s).st
  join : ∀ (c : Cell) (s : State), Inv s → Inv (joinDownstream c s)
  grant : ∀ s : State, Inv s → Inv (headGrant s)
  start : ∀ s : State, Inv s → Inv (tailStart s)
  normal : ∀ (e : TxEnd) (s : State), Inv s → Inv (endNormal e s)
  tailTx : ∀ (e : TxEnd) (s : State), Inv s → Inv (tailTxEnd e s)

namespace KeptByControlParts

variable {Inv : State → Prop} (h : KeptByControlParts Inv)
include h

theorem headTxEnd (e : TxEnd) (s : State) (hs : Inv s) : Inv (headTxEnd e s) := by
  unfold Machine.headTxEnd
  split
  · exact hs
  · rename_i src cell _
    have hcut : Inv { recordCut .head e cell s with headTx := .idle } := h.congr hs (by cases e <;> rfl)
    generalize ({ recordCut .head e cell s with headTx := .idle } : State) = u at hcut
    cases src with
    | urgent =>
      obtain ⟨_, _, _, hend⟩ := endUrgent_frame e u
      dsimp only
      rw [hend]
      exact h.congr hcut rfl
    | normal => exact h.normal e _ hcut
    | reply =>
      obtain ⟨rs, hend | hend⟩ := endReply_cases u
      · dsimp only
        rw [hend]
        exact h.congr hcut rfl
      · dsimp only
        rw [hend, ← deviceReset_after]
        exact h.reset _ (h.congr hcut rfl)
    | report q => exact h.congr hcut rfl
    | detached => exact hcut

theorem takingParts : KeptByTakingParts Inv where
  reset := h.reset
  owner := h.owner
  count _ _ _ hs := h.congr hs rfl
  queue _ _ _ hs := h.congr hs rfl
  store _ _ hs := h.congr hs rfl

theorem takePayload (f : Form) (payload : List Byte) (s : State) (hs : Inv s) : Inv (takePayload f payload s) := by
  unfold Machine.takePayload
  split
  · exact h.takingParts.take f _ _ _ s hs
  · exact h.congr hs rfl

theorem acceptDownstream (cell : Cell) (s : State) (hs : Inv s) : Inv (acceptDownstream cell s) := by
  unfold Machine.acceptDownstream
  dsimp only
  split
  · exact h.takePayload _ _ _ (h.congr hs rfl)
  · exact h.join _ _ (h.congr hs rfl)
  · exact h.takePayload _ _ _ (h.join _ _ (h.congr hs rfl))

theorem headEnd (ok : Nat → List Byte → Bool) (s : State) (hs : Inv s) : Inv (headEnd ok s) := by
  unfold Machine.headEnd
  split
  · dsimp only
    split
    · exact h.congr hs rfl
    · split
      · exact h.acceptDownstream _ _ (h.congr hs rfl)
      · exact h.congr hs rfl
  · exact hs
  · exact h.congr hs rfl

theorem portParts : KeptByPortParts Inv where
  port p x s hs := h.congr hs (by cases p <;> rfl)
  start p s hs := by
    refine h.congr hs ?_
    cases p with
    | head =>
      obtain ⟨_, hstart⟩ := headStartOfCell_frame s
      rw [startEvent, hstart]
      rfl
    | tail =>
      obtain ⟨_, _, _, _, _, hstart⟩ := tailStartOfCell_frame s
      rw [startEvent, hstart]
      rfl
  byte p b s hs := by
    refine h.congr hs ?_
    cases p with
    | head =>
      obtain ⟨_, _, hbyte⟩ := headByte_frame b s
      rw [byteEvent, hbyte]
      rfl
    | tail =>
      obtain ⟨_, _, _, _, _, _, _, hbyte⟩ := tailByte_frame b s
      rw [byteEvent, hbyte]
      rfl
  stop p s hs := by
    cases p with
    | head => exact h.headEnd _ s hs
    | tail => exact h.congr hs (control_tailEnd _ s)
  fail p s hs := by
    cases p with
    | head => exact h.headEnd (fun _ _ => false) s hs
    | tail => exact h.congr hs (control_tailEnd _ s)
  abort p s hs := by
    refine h.congr hs ?_
    cases p with
    | head =>
      obtain ⟨_, _, habort⟩ := headAbort_frame s
      rw [abortEvent, habort]
      rfl
    | tail =>
      obtain ⟨_, _, _, _, _, habort⟩ := tailAbort_frame s
      rw [abortEvent, habort]
      rfl
  txAbort p s hs := by
    cases p with
    | head => exact h.headTxEnd _ s hs
    | tail => exact h.tailTx _ s hs
  link n s hs := h.congr hs (control_occur _ n s)

/-- A property of the address, the settings, the starvation count and the downstream path is kept by every event if the
events that reach them keep it. -/
theorem events : KeptByEvents Inv where
  pending _ _ hs := h.congr hs rfl
  powerOn _ _ := h.congr h.powerOn rfl
  hold _ hs := h.congr hs rfl
  freeIndex _ _ hs := h.congr hs rfl
  grant := h.grant
  start := h.start
  headTx := h.headTxEnd
  tailTx := h.tailTx
  symbol := h.portParts.receive
  detect := h.portParts.detect
  lose := h.portParts.lose
  take := h.takingParts.take
  refill s hs := by
    obtain ⟨_, _, hrefill⟩ := expireRefill_frame s
    exact h.congr hs (by rw [hrefill]; rfl)
  expire q s hs := by
    obtain ⟨_, _, hexpire⟩ := expireSequence_frame q s
    exact h.congr hs (by rw [hexpire]; rfl)
  advance _ hs := h.congr hs rfl

end KeptByControlParts

end Sys2Proof.Machine
end

section
/-! PROOF. O59: the node address, the settings and the starvation count stay in their ranges. ADDRESS_ASSIGN and
SETTING_WRITE check what they set, and a grant raises the count only while it is below starvation_limit. -/

namespace Sys2Proof.Machine

/-- R122, R167, R206: the address, the settings and the starvation count lie in their ranges. -/
structure RangesLegal (s : State) : Prop where
  address : addressLegal s
  settings : settingsInRange s
  starvation : starvationBounded s

theorem rangesLegal_iff (s : State) :
    RangesLegal s ↔ addressLegal s ∧ settingsInRange s ∧ starvationBounded s :=
  ⟨fun ⟨ha, hset, hst⟩ => ⟨ha, hset, hst⟩, fun ⟨ha, hset, hst⟩ => ⟨ha, hset, hst⟩⟩

/-- What the invariant is about. -/
def ranged (s : State) : Option Byte × Settings × Nat := (s.nodeAddress, s.settings, s.starvation)

theorem RangesLegal.congr {s u : State} (hs : RangesLegal s) (h : ranged u = ranged s) : RangesLegal u := by
  simp only [ranged, Prod.mk.injEq] at h
  obtain ⟨haddress, hsettings, hstarvation⟩ := h
  obtain ⟨ha, hset, hst⟩ := hs
  unfold addressLegal at ha
  unfold settingsInRange at hset
  unfold starvationBounded at hst
  rw [← haddress] at ha
  rw [← hsettings] at hset
  rw [← hstarvation] at hst
  exact ⟨ha, hset, hst⟩

/-! ### The starvation count -/

/-- A grant raises the count only below starvation_limit, which is at most 255 (R121, R122). -/
theorem starvationBounded_headGrant {s : State} (hs : RangesLegal s) : starvationBounded (headGrant s) := by
  obtain ⟨_, hset, hst⟩ := hs
  by_cases hno : s.headTx ≠ .idle ∨ s.headPort.link ≠ .up ∨ selectSource s = none
  · rw [headGrant_none hno]
    exact hst
  · push Not at hno
    obtain ⟨hidle, hup, hsome⟩ := hno
    obtain ⟨g, hg⟩ := Option.ne_none_iff_exists'.1 hsome
    obtain ⟨_, _, _, hcount⟩ := grantTo_of_offers (offers_of_selectSource hg)
    unfold starvationBounded
    rw [headGrant_some hidle hup hg, hcount]
    split
    · exact Nat.zero_le _
    · rename_i hnormal
      unfold yieldedCount
      split
      · exact hst
      · rename_i hqueue
        have hlt := starvation_lt_of_selectSource hg hnormal hqueue
        obtain ⟨_, _, _, _, _, _, _, _, hlimit⟩ := hset
        omega

theorem rangesLegal_headGrant (s : State) (hs : RangesLegal s) : RangesLegal (headGrant s) := by
  have hst := starvationBounded_headGrant hs
  obtain ⟨_, _, _, _, _, _, _, h⟩ := headGrant_frame s
  rw [h] at hst ⊢
  exact ⟨hs.address, hs.settings, hst⟩

/-- The count returns to 0 with the last normal cell, and stays otherwise (R122). -/
theorem rangesLegal_endNormal (e : TxEnd) (s : State) (hs : RangesLegal s) : RangesLegal (endNormal e s) := by
  cases hq : s.normal with
  | nil =>
    rw [endNormal, hq]
    exact hs
  | cons c rest =>
    rw [endNormal_cons hq]
    refine ⟨hs.address, hs.settings, ?_⟩
    show (if rest = [] then 0 else s.starvation) ≤ 255
    split
    · exact Nat.zero_le _
    · exact hs.starvation

/-! ### The requests that set an address or a setting -/

/-- SETTING_WRITE sets a value that lies in the range of its item (R170, R206). -/
theorem settingsInRange_setSetting {i : SettingItem} {v : Nat} {s : State} (hs : settingsInRange s)
    (hv : settingInRange i v = true) : settingsInRange (setSetting i v s) := by
  have ⟨hprobe0, hprobe1, hnormalLow, hnormalHigh, hrefill, htimeoutLow, htimeoutHigh, hlimitLow, hlimitHigh⟩ := hs
  cases i with
  | missAction =>
    rw [setSetting, setMissAction_reaches]
    exact hs
  | probe0Offset =>
    have hv : v ≤ 47 := by simpa [settingInRange] using hv
    exact ⟨hv, hprobe1, hnormalLow, hnormalHigh, hrefill, htimeoutLow, htimeoutHigh, hlimitLow, hlimitHigh⟩
  | probe1Offset =>
    have hv : v ≤ 47 := by simpa [settingInRange] using hv
    exact ⟨hprobe0, hv, hnormalLow, hnormalHigh, hrefill, htimeoutLow, htimeoutHigh, hlimitLow, hlimitHigh⟩
  | normalLimit =>
    obtain ⟨hlow, hhigh⟩ : 1 ≤ v ∧ v ≤ 23 := by simpa [settingInRange] using hv
    exact ⟨hprobe0, hprobe1, hlow, hhigh, hrefill, htimeoutLow, htimeoutHigh, hlimitLow, hlimitHigh⟩
  | refillInterval =>
    have hv : v ∈ [50, 100, 200, 500] := by simpa [settingInRange, or_assoc] using hv
    exact ⟨hprobe0, hprobe1, hnormalLow, hnormalHigh, hv, htimeoutLow, htimeoutHigh, hlimitLow, hlimitHigh⟩
  | reportTimeout =>
    obtain ⟨hlow, hhigh⟩ : 1 ≤ v ∧ v ≤ 255 := by simpa [settingInRange] using hv
    exact ⟨hprobe0, hprobe1, hnormalLow, hnormalHigh, hrefill, hlow, hhigh, hlimitLow, hlimitHigh⟩
  | reportEnable => exact hs
  | starvationLimit =>
    obtain ⟨hlow, hhigh⟩ : 1 ≤ v ∧ v ≤ 255 := by simpa [settingInRange] using hv
    exact ⟨hprobe0, hprobe1, hnormalLow, hnormalHigh, hrefill, htimeoutLow, htimeoutHigh, hlow, hhigh⟩

theorem rangesLegal_answerSettingWrite (args : List Byte) (s : State) (hs : RangesLegal s) :
    RangesLegal (answerSettingWrite args s).st := by
  unfold answerSettingWrite
  split
  · exact hs
  · rename_i i _
    dsimp only
    split
    · exact hs
    · rename_i hv
      split
      · exact hs
      · have hset := settingsInRange_setSetting hs.settings (Bool.eq_true_of_not_eq_false hv)
        obtain ⟨_, _, _, h⟩ := setSetting_frame i (argWord args 1) s
        dsimp only
        rw [h] at hset ⊢
        exact ⟨hs.address, hset, hs.starvation⟩

/-- ADDRESS_ASSIGN sets an address from 0x01 to 0xEF (R167, R168). -/
theorem rangesLegal_answerAddressAssign (args : List Byte) (s : State) (hs : RangesLegal s) :
    RangesLegal (answerAddressAssign args s).st := by
  unfold answerAddressAssign
  split
  · exact hs
  · rename_i hrange
    push Not at hrange
    refine ⟨fun a ha => ?_, hs.settings, hs.starvation⟩
    cases ha
    exact hrange

/-- No owning rule but that of ADDRESS_ASSIGN and that of SETTING_WRITE sets an address or a setting (R155). -/
theorem ranged_ownerAnswer {k : Kind} (ha : k ≠ .addressAssign) (hw : k ≠ .settingWrite) (args : List Byte)
    (s : State) : ranged (ownerAnswer k args s).st = ranged s := by
  have hevery : ∀ f : Fin 64 → State → State, (∀ i s, ∃ x0 x1, f i s = { s with entries := x0, actions := x1 }) →
      ranged (atEveryPosition f s) = ranged s := fun f hf => by
    obtain ⟨_, _, h⟩ := atEveryPosition_frame f hf s
    rw [h]
    rfl
  cases k with
  | addressAssign => exact absurd rfl ha
  | settingWrite => exact absurd rfl hw
  | entryWrite =>
    dsimp only [ownerAnswer, answerEntryWrite, refusal]
    iterate 6 (split; · rfl)
    obtain ⟨_, _, h⟩ := writeEntry_frame _ _ s
    rw [h]
    rfl
  | entryRetire =>
    dsimp only [ownerAnswer, answerEntryRetire, refusal]
    split
    · rfl
    · obtain ⟨_, _, h⟩ := retireEntry_frame _ s
      rw [h]
      rfl
  | batchActivate =>
    dsimp only [ownerAnswer, answerBatchActivate, refusal]
    split
    · dsimp only
      exact hevery _ (activateAt_frame _ _)
    · rfl
  | batchRetire =>
    dsimp only [ownerAnswer, answerBatchRetire, refusal]
    split
    · rfl
    · dsimp only
      exact hevery _ (retireIfIn_frame _)
  | batchDiscard =>
    dsimp only [ownerAnswer, answerBatchDiscard, refusal]
    split
    · rfl
    · dsimp only
      exact hevery _ (discardIfIn_frame _)
  | _ =>
    dsimp only [ownerAnswer, answerPing, answerIdentRead, answerSettingRead, answerEntryRead, answerActionWrite,
      answerActionRead, answerActionClear, answerMeterWrite, answerMeterRead, answerBinruleWrite, answerBinruleRead,
      answerBinsRead, answerBinsReadClear, answerBinsClear, answerCaptureFetch, answerCaptureRelease, answerReportAck,
      answerStatsRead, answerStatsClear, answerDeviceReset, refusal]
    repeat' split
    all_goals rfl

theorem rangesLegal_ownerAnswer (k : Kind) (args : List Byte) (s : State) (hs : RangesLegal s) :
    RangesLegal (ownerAnswer k args s).st := by
  by_cases ha : k = .addressAssign
  · subst ha
    exact rangesLegal_answerAddressAssign args s hs
  · by_cases hw : k = .settingWrite
    · subst hw
      exact rangesLegal_answerSettingWrite args s hs
    · exact hs.congr (ranged_ownerAnswer ha hw args s)

/-! ### Every event -/

theorem rangesLegal_keptByControlParts : KeptByControlParts RangesLegal where
  congr hs h := hs.congr (congrArg (fun x => (x.1, x.2.1, x.2.2.1)) h)
  powerOn := ⟨fun _ h => (by cases h), settingsInRange_reset, Nat.zero_le _⟩
  reset s hs := by
    rw [deviceReset_eq]
    exact ⟨hs.address, settingsInRange_reset, Nat.zero_le _⟩
  owner := rangesLegal_ownerAnswer
  join c s hs := by
    obtain ⟨_, _, h⟩ := joinDownstream_frame c s
    exact hs.congr (by rw [h]; rfl)
  grant := rangesLegal_headGrant
  start s hs := by
    obtain ⟨_, h⟩ := tailStart_frame s
    exact hs.congr (by rw [h]; rfl)
  normal := rangesLegal_endNormal
  tailTx e s hs := by
    obtain ⟨_, _, _, _, _, h⟩ := tailTxEnd_frame e s
    exact hs.congr (by rw [h]; rfl)

/-- Settles O59: the events that reach an address, a setting or the count keep the ranges, and so does every step. -/
theorem stepKeepsAddressSettingsAndStarvationInRange : Obligations.StepKeepsAddressSettingsAndStarvationInRange := by
  intro s t hs he
  rw [← rangesLegal_iff] at hs ⊢
  exact rangesLegal_keptByControlParts.events.step s t hs he

end Sys2Proof.Machine
end

section
/-! PROOF. O58: an idle transmitter of an UP port leaves no cell unsent. The downstream queue stays bounded at every
event; that no cell is left unsent holds after the decisions at the close, whatever the event left before them, and the
few commands without a close reach nothing that the decisions depend on. -/

namespace Sys2Proof.Machine

/-! ### The downstream queue -/

theorem downstreamBounded_congr {s u : State} (h : (u.downQueue, u.tailTx) = (s.downQueue, s.tailTx))
    (hs : downstreamBounded s) : downstreamBounded u := by
  obtain ⟨hqueue, htx⟩ := Prod.mk.inj h
  unfold downstreamBounded
  rw [hqueue, htx]
  exact hs

/-- A cell joins the queue only while it holds fewer than 4 (R195). -/
theorem downstreamBounded_joinDownstream (c : Cell) (s : State) (hs : downstreamBounded s) :
    downstreamBounded (joinDownstream c s) := by
  unfold joinDownstream
  split
  · rename_i hroom
    have hroom : s.downQueue.length < 4 := hroom
    exact ⟨by simpa using hroom, fun _ => by simp⟩
  · exact hs

/-- The Tail transmitter starts on a queue that holds a cell (R196). -/
theorem downstreamBounded_tailStart (s : State) (hs : downstreamBounded s) : downstreamBounded (tailStart s) := by
  unfold tailStart
  split
  · rename_i hstart
    obtain ⟨hlen, _⟩ := hs
    obtain ⟨_, _, hqueue⟩ := hstart
    exact ⟨hlen, fun _ => hqueue⟩
  · exact hs

theorem downstreamBounded_tailTxEnd (e : TxEnd) (s : State) (hs : downstreamBounded s) :
    downstreamBounded (tailTxEnd e s) := by
  unfold tailTxEnd
  split
  · exact hs
  · obtain ⟨hlen, _⟩ := hs
    refine ⟨?_, fun h => by cases h⟩
    show (s.downQueue.drop 1).length ≤ 4
    rw [List.length_drop]
    exact (Nat.sub_le _ _).trans hlen

theorem downstreamBounded_keptByControlParts : KeptByControlParts downstreamBounded where
  congr hs h := downstreamBounded_congr (congrArg (fun x => x.2.2.2) h) hs
  powerOn := ⟨Nat.zero_le _, fun h => by cases h⟩
  reset s hs := by
    rw [deviceReset_eq]
    exact hs
  owner k args s hs := by
    by_cases hk : k = .statsClear
    · subst hk
      exact hs
    · obtain ⟨_, _, _, _, _, _, _, _, _, _, _, h⟩ := ownerAnswer_frame hk args s
      rw [h]
      exact hs
  join := downstreamBounded_joinDownstream
  grant s hs := by
    obtain ⟨_, _, _, _, _, _, _, h⟩ := headGrant_frame s
    rw [h]
    exact hs
  start := downstreamBounded_tailStart
  normal e s hs := by
    obtain ⟨_, _, _, _, h⟩ := endNormal_frame e s
    rw [h]
    exact hs
  tailTx := downstreamBounded_tailTxEnd

/-! ### The decisions at the close -/

/-- R120, R129, R196: no transmitter that could start a cell is idle. -/
structure CellsStarted (s : State) : Prop where
  head : grantsMade s
  tail : tailStarted s

/-- What the two decisions at the close of an event depend on (R120, R196). -/
def decisions (s : State) : HeadTx × LinkState × Option GrantSource × TailTx × LinkState × List Cell :=
  (s.headTx, s.headPort.link, selectSource s, s.tailTx, s.tailPort.link, s.downQueue)

theorem CellsStarted.congr {s u : State} (hs : CellsStarted s) (h : decisions u = decisions s) : CellsStarted u := by
  simp only [decisions, Prod.mk.injEq] at h
  obtain ⟨hheadTx, hheadLink, hselect, htailTx, htailLink, hqueue⟩ := h
  obtain ⟨hhead, htail⟩ := hs
  unfold grantsMade at hhead
  unfold tailStarted at htail
  rw [← hheadTx, ← hheadLink, ← hselect] at hhead
  rw [← htailTx, ← htailLink, ← hqueue] at htail
  exact ⟨hhead, htail⟩

/-- Where a source offers a cell, the grant decision starts one (R120). -/
theorem grantsMade_headGrant (s : State) : grantsMade (headGrant s) := by
  by_cases hno : s.headTx ≠ .idle ∨ s.headPort.link ≠ .up ∨ selectSource s = none
  · rw [headGrant_none hno]
    exact fun hidle hup => (hno.resolve_left (· hidle)).resolve_left (· hup)
  · push Not at hno
    obtain ⟨hidle, hup, hsome⟩ := hno
    obtain ⟨g, hg⟩ := Option.ne_none_iff_exists'.1 hsome
    obtain ⟨_, _, hsends, _⟩ := grantTo_of_offers (offers_of_selectSource hg)
    rw [← headGrant_some hidle hup hg] at hsends
    exact fun hidle' => by cases hsends.symm.trans hidle'

/-- Where a cell waits downstream, the Tail start sends it (R196). -/
theorem tailStarted_tailStart (s : State) : tailStarted (tailStart s) := by
  unfold tailStart
  split
  · exact fun h => by cases h
  · rename_i hno
    exact fun hidle hup => by_contra fun hqueue => hno ⟨hidle, hup, hqueue⟩

theorem cellsStarted_headGrant {s : State} (hs : tailStarted s) : CellsStarted (headGrant s) := by
  refine ⟨grantsMade_headGrant s, ?_⟩
  obtain ⟨_, _, _, _, _, _, _, h⟩ := headGrant_frame s
  rw [h]
  exact hs

theorem cellsStarted_tailStart {s : State} (hs : grantsMade s) : CellsStarted (tailStart s) := by
  refine ⟨?_, tailStarted_tailStart s⟩
  obtain ⟨_, h⟩ := tailStart_frame s
  rw [h]
  exact hs

theorem cellsStarted_settle (s : State) : CellsStarted (settle s) := cellsStarted_tailStart (grantsMade_headGrant s)

/-! ### The commands -/

theorem CellsStarted.of_unlessHeld {f : State → State} {s : State} (hs : CellsStarted s) (hf : CellsStarted (f s)) :
    CellsStarted (unlessHeld f s) := by
  unfold unlessHeld
  split
  · exact hs
  · exact hf

/-- A command that closes with the decisions leaves no cell unsent, whatever its event does (log 3). -/
theorem CellsStarted.of_close {f : State → State} {s t : State} (hs : CellsStarted s)
    (he : Host.Outcome.next (unlessHeld (fun s => settle (f s)) s) = (.next t : Result)) : CellsStarted t := by
  cases he
  exact hs.of_unlessHeld (cellsStarted_settle _)

/-- A port on which signal is detected is not UP (R184). -/
theorem cellsStarted_detectSignal (p : Side) {s : State} (hs : CellsStarted s) : CellsStarted (detectSignal p s) := by
  unfold detectSignal
  split
  · cases p with
    | head => exact ⟨fun _ hup => (by cases hup), hs.tail⟩
    | tail => exact ⟨hs.head, fun _ hup => (by cases hup)⟩
  · exact hs
  · exact hs

theorem cellsStarted_expireRefill {s : State} (hs : CellsStarted s) : CellsStarted (expireRefill s) := by
  obtain ⟨_, _, h⟩ := expireRefill_frame s
  rw [h]
  exact hs.congr rfl

/-- Each overdue expiry closes with the decisions (log 6). -/
theorem cellsStarted_expireEach (l : List Byte) {s : State} (hs : CellsStarted s) : CellsStarted (expireEach l s) := by
  induction l generalizing s with
  | nil => exact hs
  | cons q l ih => exact ih (cellsStarted_settle _)

theorem cellsStarted_resetnHeldLow (ns : Nat) {s t : State} (hs : CellsStarted s)
    (he : execResetnHeldLow ns s = .next t) : CellsStarted t := by
  unfold execResetnHeldLow at he
  split at he
  · cases he
    exact hs
  · split at he
    · cases he
      exact hs.congr rfl
    · split at he
      · cases he
        exact hs.congr rfl
      · cases he
        exact hs.congr rfl

/-- Every command closes with the decisions, or is one of seven that reach at most one of them. -/
theorem cellsStarted_exec (c : Instr) {s t : State} (hs : CellsStarted s) (he : exec c s = .next t) :
    CellsStarted t := by
  cases c with
  | powerOnReset =>
    cases he
    exact ⟨fun _ hup => (by cases hup), fun _ hup => (by cases hup)⟩
  | resetnHeldLow ns => exact cellsStarted_resetnHeldLow ns hs he
  | signalDetected p =>
    cases he
    exact hs.of_unlessHeld (cellsStarted_detectSignal p hs)
  | transmitStart =>
    cases he
    exact hs.of_unlessHeld (cellsStarted_headGrant hs.tail)
  | tailTransmitStart =>
    cases he
    exact hs.of_unlessHeld (cellsStarted_tailStart hs.head)
  | refillExpiry =>
    cases he
    exact hs.of_unlessHeld (cellsStarted_expireRefill hs)
  | lineTimeTick =>
    cases he
    exact hs.of_unlessHeld ((cellsStarted_expireEach _ (cellsStarted_expireRefill hs)).congr rfl)
  | _ => exact hs.of_close he

/-- Settles O58: the downstream queue by the events, and the cells started by the command that runs. -/
theorem stepLeavesNoCellUnsent : Obligations.StepLeavesNoCellUnsent := by
  intro s t ⟨hhead, htail, hbounded⟩ he
  have hs : CellsStarted s := ⟨hhead, htail⟩
  have ht : CellsStarted t := by
    unfold step at he
    split at he
    · cases he
      exact hs
    · rename_i q _
      exact cellsStarted_exec _ (hs.congr (u := { s with pending := q }) rfl) he
  exact ⟨ht.head, ht.tail, downstreamBounded_keptByControlParts.events.step s t hbounded he⟩

end Sys2Proof.Machine
end

section
/-! PROOF. O25, O34 and O39: an occurrence, and the SENT record that a sequence names. -/

namespace Sys2Proof.Machine

/-! ### Occurrences (R137) -/

theorem isFor_iff (k : ReportKind) (n : Nat) (w : WaitingReport) :
    w.isFor k n = true ↔ w.kind = k ∧ w.subject = n := by
  simp [WaitingReport.isFor]

/-- The WAITING records with those of a kind and subject raised by one occurrence (R137). -/
def mergeOccurrence (k : ReportKind) (n : Nat) (l : List WaitingReport) : List WaitingReport :=
  l.map fun w => if w.isFor k n then { w with occurrences := min (w.occurrences + 1) 255 } else w

theorem mergeOccurrence_of_none {k : ReportKind} {n : Nat} {l : List WaitingReport}
    (h : ∀ x ∈ l, ¬(x.kind = k ∧ x.subject = n)) : mergeOccurrence k n l = l :=
  (List.map_congr_left fun x hx => if_neg (mt (isFor_iff k n x).1 (h x hx))).trans (List.map_id _)

theorem mergeOccurrence_of_unique {k : ReportKind} {n : Nat} {before after : List WaitingReport} {w : WaitingReport}
    (hw : w.kind = k ∧ w.subject = n) (hunique : ∀ x ∈ before ++ after, ¬(x.kind = k ∧ x.subject = n)) :
    mergeOccurrence k n (before ++ w :: after) =
      before ++ { w with occurrences := min (w.occurrences + 1) 255 } :: after := by
  have hbefore := mergeOccurrence_of_none fun x hx => hunique x (List.mem_append_left _ hx)
  have hafter := mergeOccurrence_of_none fun x hx => hunique x (List.mem_append_right _ hx)
  unfold mergeOccurrence at hbefore hafter ⊢
  rw [List.map_append, List.map_cons, hbefore, hafter, if_pos ((isFor_iff k n w).2 hw)]

theorem occur_disabled {k : ReportKind} {s : State} (h : s.accepts k = false) (n : Nat) : occur k n s = s := by
  rw [occur, h]
  rfl

section
variable {k : ReportKind} {n : Nat} {s : State} (h : s.accepts k = true)
include h

theorem occur_merged (hw : ∃ w ∈ s.waiting, w.kind = k ∧ w.subject = n) :
    occur k n s = { s with waiting := mergeOccurrence k n s.waiting } := by
  have hany : s.waiting.any (WaitingReport.isFor k n) = true := by simpa only [List.any_eq_true, isFor_iff] using hw
  rw [occur, if_pos h, if_pos hany]
  rfl

variable (hnone : ∀ x ∈ s.waiting, ¬(x.kind = k ∧ x.subject = n))
include hnone

theorem occur_unmerged : occur k n s =
    if s.reportCount < Config.reportRecords then { s with waiting := s.waiting ++ [⟨k, n, 1, s.lineTime⟩] }
    else { s.count .reportsLost with lostSinceSent := min (s.lostSinceSent + 1) 255 } := by
  have hany : ¬s.waiting.any (WaitingReport.isFor k n) = true := by
    simpa only [List.any_eq_true, isFor_iff, not_exists, not_and] using hnone
  rw [occur, if_pos h, if_neg hany]

theorem occur_queued (hroom : s.waiting.length + s.sent.length < 16) :
    occur k n s = { s with waiting := s.waiting ++ [⟨k, n, 1, s.lineTime⟩] } :=
  (occur_unmerged h hnone).trans (if_pos hroom)

theorem occur_lost (hfull : 16 ≤ s.waiting.length + s.sent.length) :
    occur k n s = { s.count .reportsLost with lostSinceSent := min (s.lostSinceSent + 1) 255 } :=
  (occur_unmerged h hnone).trans (if_neg (Nat.not_lt.2 hfull))

end

/-- Settles O34: the four outcomes of an occurrence. -/
theorem occurrenceIsMergedQueuedOrLost : Obligations.OccurrenceIsMergedQueuedOrLost := by
  intro k n s
  refine ⟨fun h => occur_disabled h n, fun h => ⟨fun before after w hwaiting hkind hsubject hunique => ?_,
    fun hnone hroom => occur_queued h hnone hroom, fun hnone hfull => occur_lost h hnone hfull⟩⟩
  rw [occur_merged h ⟨w, by simp [hwaiting], hkind, hsubject⟩, hwaiting,
    mergeOccurrence_of_unique ⟨hkind, hsubject⟩ hunique]

/-! ### The SENT record of a sequence -/

section
variable {before after : List SentReport} {r : SentReport} (hunique : ∀ x ∈ before ++ after, x.seq ≠ r.seq)
include hunique

theorem find?_of_unique {p : SentReport → Bool} (hp : p r = true) (hseq : ∀ x, p x = true → x.seq = r.seq) :
    (before ++ r :: after).find? p = some r := by
  rw [List.find?_eq_some_iff_append]
  refine ⟨hp, before, after, rfl, fun x hx => ?_⟩
  simpa using mt (hseq x) (hunique x (List.mem_append_left _ hx))

theorem filter_of_unique : (before ++ r :: after).filter (fun x => x.seq != r.seq) = before ++ after := by
  rw [List.filter_append, List.filter_cons_of_neg (by simp), ← List.filter_append]
  exact List.filter_eq_self.2 fun x hx => by simpa using hunique x hx

end

/-! ### REPORT_ACK (R144) -/

theorem answerReportAck_found {before after : List SentReport} {r : SentReport} {s : State}
    (hsent : s.sent = before ++ r :: after) (hunique : ∀ x ∈ before ++ after, x.seq ≠ r.seq) (more : List Byte) :
    answerReportAck (r.seq :: more) s = ⟨{ s with sent := before ++ after }, .ok,
      [byteOf r.kind.code] ++ bytes16 r.subject ++ [byteOf r.sends]⟩ := by
  have hfind : s.sent.find? (fun x => x.seq == argByte (r.seq :: more) 0) = some r := by
    rw [hsent]
    exact find?_of_unique hunique (by simp) (by simp)
  rw [answerReportAck, hfind]
  simp only [hsent, filter_of_unique hunique]

theorem answerReportAck_missing {q : Byte} {s : State} (hnone : ∀ x ∈ s.sent, x.seq ≠ q) (more : List Byte) :
    answerReportAck (q :: more) s = ⟨s, .notFound, [byteOf s.sent.length]⟩ := by
  have hfind : s.sent.find? (fun x => x.seq == argByte (q :: more) 0) = none := by simpa using hnone
  rw [answerReportAck, hfind]

/-- Settles O25: the record of the sequence is removed, or there is none. -/
theorem reportAckRemovesTheSentRecord : Obligations.ReportAckRemovesTheSentRecord := by
  intro tag q more s h
  have hexec {results : List Byte} {u : State} {st : Status}
      (ha : answerReportAck (q :: more) s = ⟨u, st, results⟩) :
      exec (.reportAck .addressed tag (q :: more)) s = .next (settle (answered 24 tag st results u)) :=
    exec_answered (k := .reportAck) h (by decide) (Nat.le_add_left 3 more.length) ha
  refine ⟨fun r before after hsent hseq hunique => ?_, fun hnone => hexec (answerReportAck_missing hnone more)⟩
  subst hseq
  exact hexec (answerReportAck_found hsent hunique more)

/-! ### REPORT_TIMER_EXPIRY (R143) -/

theorem expireRecord_due {r : SentReport} (h : r.sends ≤ 3) (s : State) : expireRecord r s = { s with
    sent := s.sent.filter (fun x => x.seq != r.seq) ++ [{ r with cond := .due }] } :=
  if_pos (Nat.lt_succ_of_le h)

theorem expireRecord_abandoned {r : SentReport} (h : 4 ≤ r.sends) (s : State) : expireRecord r s = { s with
    sent := s.sent.filter fun x => x.seq != r.seq
    stats := { s.stats with reportsAbandoned := s.stats.reportsAbandoned + 1 } } :=
  if_neg (Nat.not_lt.2 h)

/-- The record whose deadline the line time has reached expires (R143, R209). -/
theorem expireSequence_of_unique {before after : List SentReport} {r : SentReport} {s : State}
    (hsent : s.sent = before ++ r :: after) (hdeadline : r.cond = .timing s.lineTime)
    (hunique : ∀ x ∈ before ++ after, x.seq ≠ r.seq) : expireSequence r.seq s = expireRecord r s := by
  have hfind : s.sent.find? (fun x => x.seq == r.seq && x.expires s.lineTime) = some r := by
    rw [hsent]
    exact find?_of_unique hunique (by simp [SentReport.expires, hdeadline]) fun x hx => by
      simpa using (Bool.and_eq_true_iff.1 hx).1
  rw [expireSequence, hfind]

/-- Settles O39: the record that expires, by the number of its sends. -/
theorem reportTimerExpiryMakesDueOrAbandons : Obligations.ReportTimerExpiryMakesDueOrAbandons := by
  intro s before after r hrun hsent hdeadline hunique
  rw [exec_reportTimerExpiry hrun, expireSequence_of_unique hsent hdeadline hunique]
  refine ⟨fun hsends => ?_, fun hsends => ?_⟩
  · rw [expireRecord_due hsends, hsent, filter_of_unique hunique]
  · rw [expireRecord_abandoned hsends.ge, hsent, filter_of_unique hunique]

end Sys2Proof.Machine
end

section
/-! PROOF. O56: the report queue stays within its bounds and its records legal. What is legal of the queue depends on
its records, on what the Head transmitter sends, and on whether the part has an address. A SENT record that the
transmitter does not send is legal whatever the transmitter does next, so a grant and the end of a transmission concern
one record. -/

namespace Sys2Proof.Machine

/-! ### WAITING records -/

/-- R135, R136: no two records of one kind and subject, each with 1 to 255 occurrences. -/
structure WaitingRecordsLegal (l : List WaitingReport) : Prop where
  subjects : (l.map fun w => (w.kind, w.subject)).Nodup
  occurrences : ∀ w ∈ l, 1 ≤ w.occurrences ∧ w.occurrences ≤ 255

theorem WaitingRecordsLegal.sublist {l m : List WaitingReport} (h : WaitingRecordsLegal l) (hm : m.Sublist l) :
    WaitingRecordsLegal m :=
  ⟨h.subjects.sublist (hm.map _), fun w hw => h.occurrences w (hm.subset hw)⟩

theorem WaitingRecordsLegal.singleton (k : ReportKind) (n : Nat) (t : Word32) :
    WaitingRecordsLegal [⟨k, n, 1, t⟩] :=
  ⟨List.nodup_singleton _, fun w hw => by simp [List.mem_singleton.1 hw]⟩

/-- A merged occurrence changes no kind and no subject, and the count stops at 255 (R137). -/
theorem WaitingRecordsLegal.merge {l : List WaitingReport} (h : WaitingRecordsLegal l) (k : ReportKind) (n : Nat) :
    WaitingRecordsLegal (mergeOccurrence k n l) := by
  refine ⟨?_, fun w hw => ?_⟩
  · have hkeep : (mergeOccurrence k n l).map (fun w => (w.kind, w.subject)) = l.map fun w => (w.kind, w.subject) := by
      rw [mergeOccurrence, List.map_map]
      refine List.map_congr_left fun w _ => ?_
      dsimp only [Function.comp_apply]
      split <;> rfl
    rw [hkeep]
    exact h.subjects
  · obtain ⟨x, hx, rfl⟩ := List.mem_map.1 hw
    obtain ⟨hlow, hhigh⟩ := h.occurrences x hx
    split
    · exact ⟨by dsimp only; omega, Nat.min_le_right _ _⟩
    · exact ⟨hlow, hhigh⟩

/-- A new record is one of a kind and subject that no other has (R137). -/
theorem WaitingRecordsLegal.append {l : List WaitingReport} (h : WaitingRecordsLegal l) {k : ReportKind} {n : Nat}
    (hnone : ∀ x ∈ l, ¬(x.kind = k ∧ x.subject = n)) (t : Word32) : WaitingRecordsLegal (l ++ [⟨k, n, 1, t⟩]) := by
  have hnew := WaitingRecordsLegal.singleton k n t
  refine ⟨?_, fun w hw => (List.mem_append.1 hw).elim (h.occurrences w) (hnew.occurrences w)⟩
  rw [List.map_append, List.nodup_append]
  refine ⟨h.subjects, hnew.subjects, fun x hx y hy hxy => ?_⟩
  obtain ⟨w, hw, rfl⟩ := List.mem_map.1 hx
  rw [List.map_singleton, List.mem_singleton] at hy
  exact hnone w hw (Prod.mk.inj (hxy.trans hy))

/-! ### SENT records -/

/-- R135, R143: one SENT record is legal for what the transmitter sends. -/
structure SentRecordLegal (tx : HeadTx) (r : SentReport) : Prop where
  sends : 1 ≤ r.sends ∧ r.sends ≤ 4
  due : r.cond = .due → r.sends ≤ 3
  held : r.cond = .inTransmission → ∃ c, tx = .sending (.report r.seq) c
  occurrences : 1 ≤ r.occurrences ∧ r.occurrences ≤ 255

/-- The transmitter sends no report. -/
def HeadTx.noReport (tx : HeadTx) : Prop := ∀ q c, tx ≠ .sending (.report q) c

theorem HeadTx.noReport_idle : HeadTx.idle.noReport := fun _ _ h => by cases h

/-- A record that is not in transmission is legal whatever the transmitter sends. -/
theorem SentRecordLegal.retransmit {tx : HeadTx} {r : SentReport} (h : SentRecordLegal tx r)
    (hr : r.cond ≠ .inTransmission) (tx' : HeadTx) : SentRecordLegal tx' r :=
  ⟨h.sends, h.due, fun hc => absurd hc hr, h.occurrences⟩

theorem SentRecordLegal.not_inTransmission {tx : HeadTx} {r : SentReport} (h : SentRecordLegal tx r)
    (htx : ∀ c, tx ≠ .sending (.report r.seq) c) : r.cond ≠ .inTransmission := fun hc =>
  (h.held hc).elim htx

/-- R136: at most 4 records, no two of one sequence, each legal. -/
structure SentRecordsLegal (tx : HeadTx) (l : List SentReport) : Prop where
  window : l.length ≤ 4
  sequences : (l.map SentReport.seq).Nodup
  records : ∀ r ∈ l, SentRecordLegal tx r

theorem SentRecordsLegal.of_nil (tx : HeadTx) : SentRecordsLegal tx [] :=
  ⟨Nat.zero_le _, List.nodup_nil, fun _ h => absurd h List.not_mem_nil⟩

theorem SentRecordsLegal.sublist {tx : HeadTx} {l m : List SentReport} (h : SentRecordsLegal tx l)
    (hm : m.Sublist l) : SentRecordsLegal tx m :=
  ⟨hm.length_le.trans h.window, h.sequences.sublist (hm.map _), fun r hr => h.records r (hm.subset hr)⟩

/-- While the transmitter sends no report no record is in transmission, and it may send anything next. -/
theorem SentRecordsLegal.retransmit {tx : HeadTx} {l : List SentReport} (h : SentRecordsLegal tx l)
    (htx : tx.noReport) (tx' : HeadTx) : SentRecordsLegal tx' l :=
  ⟨h.window, h.sequences, fun r hr =>
    (h.records r hr).retransmit ((h.records r hr).not_inTransmission (htx r.seq)) tx'⟩

/-- A legal record of a new sequence takes a free place of the window (R136, R140). -/
theorem SentRecordsLegal.append {tx : HeadTx} {l : List SentReport} (h : SentRecordsLegal tx l) {r : SentReport}
    (hroom : l.length < 4) (hnew : ∀ x ∈ l, x.seq ≠ r.seq) (hr : SentRecordLegal tx r) :
    SentRecordsLegal tx (l ++ [r]) := by
  refine ⟨by simpa using hroom, ?_, fun x hx => ?_⟩
  · rw [List.map_append, List.map_singleton, List.nodup_append]
    refine ⟨h.sequences, List.nodup_singleton _, fun q hq q' hq' => ?_⟩
    obtain ⟨x, hx, rfl⟩ := List.mem_map.1 hq
    rw [List.mem_singleton.1 hq']
    exact hnew x hx
  · obtain hx | hx := List.mem_append.1 hx
    · exact h.records x hx
    · rw [List.mem_singleton.1 hx]
      exact hr

/-- A change of the record of one sequence that keeps the sequence leaves the queue legal if it leaves that record
legal, and if the others are legal for what the transmitter sends after it. -/
theorem SentRecordsLegal.change {tx tx' : HeadTx} {l : List SentReport} (h : SentRecordsLegal tx l) (q : Byte)
    {f : SentReport → SentReport} (hseq : ∀ r, (f r).seq = r.seq)
    (hchanged : ∀ r ∈ l, r.seq = q → SentRecordLegal tx' (f r))
    (hothers : ∀ r ∈ l, r.seq ≠ q → SentRecordLegal tx' r) : SentRecordsLegal tx' (changeSent q f l) := by
  refine ⟨?_, ?_, fun r hr => ?_⟩
  · rw [changeSent, List.length_map]
    exact h.window
  · have hkeep : (changeSent q f l).map SentReport.seq = l.map SentReport.seq := by
      rw [changeSent, List.map_map]
      refine List.map_congr_left fun r _ => ?_
      dsimp only [Function.comp_apply]
      split
      · exact hseq r
      · rfl
    rw [hkeep]
    exact h.sequences
  · obtain ⟨x, hx, rfl⟩ := List.mem_map.1 hr
    split
    · exact hchanged x hx (by assumption)
    · exact hothers x hx (by assumption)

/-- The record of a sequence is the only one of it (R136). -/
theorem SentRecordsLegal.unique {tx : HeadTx} {l : List SentReport} (h : SentRecordsLegal tx l) {r x : SentReport}
    (hr : r ∈ l) (hx : x ∈ l) (hseq : x.seq = r.seq) : x = r :=
  List.inj_on_of_nodup_map h.sequences hx hr hseq

/-- A due record goes into transmission again: it had at most 3 sends (R140, R143). -/
theorem SentRecordsLegal.resend {tx : HeadTx} {l : List SentReport} (h : SentRecordsLegal tx l) (htx : tx.noReport)
    {r : SentReport} (hr : r ∈ l) (hdue : r.cond = .due) (c : Cell) :
    SentRecordsLegal (.sending (.report r.seq) c) (changeSent r.seq SentReport.resent l) := by
  refine h.change r.seq (fun _ => rfl) (fun x hx hseq => ?_) (fun x hx _ => (h.retransmit htx _).records x hx)
  obtain rfl := h.unique hr hx hseq
  have hx' := h.records x hx
  exact ⟨⟨Nat.le_add_left _ _, Nat.succ_le_succ (hx'.due hdue)⟩, fun hc => (by cases hc), fun _ => ⟨c, rfl⟩,
    hx'.occurrences⟩

/-- The end of a report's transmission starts the timer of its record, and no other is in transmission (R142). -/
theorem SentRecordsLegal.time {q : Byte} {c : Cell} {l : List SentReport}
    (h : SentRecordsLegal (.sending (.report q) c) l) (tx : HeadTx) (deadline : Word32) :
    SentRecordsLegal tx (changeSent q (fun r => { r with cond := .timing deadline }) l) := by
  refine h.change q (fun _ => rfl) (fun r hr _ => ?_) (fun r hr hseq => ?_)
  · have hr' := h.records r hr
    exact ⟨hr'.sends, fun hc => (by cases hc), fun hc => (by cases hc), hr'.occurrences⟩
  · refine (h.records r hr).retransmit ((h.records r hr).not_inTransmission fun c' hc => ?_) tx
    cases hc
    exact hseq rfl

/-- The removal of a record that is held makes a place (R143, R144). -/
theorem length_filter_seq_lt {l : List SentReport} {r : SentReport} (hr : r ∈ l) :
    (l.filter fun x => x.seq != r.seq).length < l.length :=
  List.length_filter_lt_length_iff_exists.2 ⟨r, hr, by simp⟩

/-- A record with at most 3 sends becomes due, at the end of the list (R143). -/
theorem SentRecordsLegal.expire {tx : HeadTx} {l : List SentReport} (h : SentRecordsLegal tx l) {r : SentReport}
    (hr : r ∈ l) (hsends : r.sends ≤ 3) :
    SentRecordsLegal tx (l.filter (fun x => x.seq != r.seq) ++ [{ r with cond := .due }]) := by
  have hr' := h.records r hr
  exact (h.sublist List.filter_sublist).append ((length_filter_seq_lt hr).trans_le h.window)
    (fun x hx => by simpa using (List.mem_filter.1 hx).2)
    ⟨hr'.sends, fun _ => hsends, fun hc => (by cases hc), hr'.occurrences⟩

/-! ### The report unit -/

/-- R135, R136, R139: the report queue is legal for what the transmitter sends and for the address. -/
structure ReportUnitLegal (s : State) : Prop where
  room : s.waiting.length + s.sent.length ≤ 16
  waiting : WaitingRecordsLegal s.waiting
  sent : SentRecordsLegal s.headTx s.sent
  address : s.sent ≠ [] → s.nodeAddress ≠ none
  lost : s.lostSinceSent ≤ 255

theorem reportUnitLegal_iff (s : State) : ReportUnitLegal s ↔ reportQueueBounded s ∧ reportsLegal s :=
  ⟨fun ⟨hroom, ⟨hsubjects, hwaiting⟩, ⟨hwindow, hsequences, hsent⟩, haddress, hlost⟩ =>
      ⟨⟨hroom, hwindow, hsubjects, hsequences⟩, hwaiting, fun r hr =>
        have ⟨⟨hlow, hhigh⟩, hdue, hheld, hoccurrences⟩ := hsent r hr
        ⟨⟨hlow, hhigh, hdue, hheld⟩, hoccurrences⟩, haddress, hlost⟩,
    fun ⟨⟨hroom, hwindow, hsubjects, hsequences⟩, hwaiting, hsent, haddress, hlost⟩ =>
      ⟨hroom, ⟨hsubjects, hwaiting⟩, ⟨hwindow, hsequences, fun r hr =>
        have ⟨⟨hlow, hhigh, hdue, hheld⟩, hoccurrences⟩ := hsent r hr
        ⟨⟨hlow, hhigh⟩, hdue, hheld, hoccurrences⟩⟩, haddress, hlost⟩⟩

/-- The report queue, its count of losses and the address. -/
def reportQueue (s : State) : List WaitingReport × List SentReport × Nat × Option Byte :=
  (s.waiting, s.sent, s.lostSinceSent, s.nodeAddress)

/-- What the invariant is about. -/
def reportUnit (s : State) : HeadTx × List WaitingReport × List SentReport × Nat × Option Byte :=
  (s.headTx, reportQueue s)

theorem ReportUnitLegal.congr {s u : State} (hs : ReportUnitLegal s) (h : reportUnit u = reportUnit s) :
    ReportUnitLegal u := by
  simp only [reportUnit, reportQueue, Prod.mk.injEq] at h
  obtain ⟨htx, hwaiting, hsent, hlost, haddress⟩ := h
  exact ⟨hwaiting ▸ hsent ▸ hs.room, hwaiting ▸ hs.waiting, htx ▸ hsent ▸ hs.sent, hsent ▸ haddress ▸ hs.address,
    hlost ▸ hs.lost⟩

/-- While the transmitter sends no report, it may send anything next. -/
theorem ReportUnitLegal.retransmit {s u : State} (hs : ReportUnitLegal s) (htx : s.headTx.noReport)
    (h : reportQueue u = reportQueue s) : ReportUnitLegal u := by
  have hs' : ReportUnitLegal { s with headTx := u.headTx } :=
    ⟨hs.room, hs.waiting, hs.sent.retransmit htx _, hs.address, hs.lost⟩
  exact hs'.congr (Prod.ext rfl h)

/-- A device reset leaves the RESET_DONE record alone (R150). -/
theorem reportUnitLegal_deviceReset (s : State) : ReportUnitLegal (deviceReset s) := by
  rw [deviceReset_eq]
  exact ⟨by simp [deviceResetValues], .singleton _ _ _, .of_nil _, fun h => absurd rfl h, Nat.zero_le _⟩

/-- An occurrence is ignored, merged, queued while there is room, or counted as lost (R137). -/
theorem reportUnitLegal_occur (k : ReportKind) (n : Nat) (s : State) (hs : ReportUnitLegal s) :
    ReportUnitLegal (occur k n s) := by
  cases hk : s.accepts k with
  | false =>
    rw [occur_disabled hk]
    exact hs
  | true =>
    by_cases hw : ∃ w ∈ s.waiting, w.kind = k ∧ w.subject = n
    · rw [occur_merged hk hw]
      refine ⟨?_, hs.waiting.merge k n, hs.sent, hs.address, hs.lost⟩
      simpa [mergeOccurrence] using hs.room
    have hnone : ∀ x ∈ s.waiting, ¬(x.kind = k ∧ x.subject = n) := fun x hx h => hw ⟨x, hx, h⟩
    obtain hroom | hfull := Nat.lt_or_ge (s.waiting.length + s.sent.length) 16
    · rw [occur_queued hk hnone hroom]
      refine ⟨?_, hs.waiting.append hnone _, hs.sent, hs.address, hs.lost⟩
      simp only [List.length_append, List.length_singleton]
      omega
    · rw [occur_lost hk hnone hfull]
      exact ⟨hs.room, hs.waiting, hs.sent, hs.address, Nat.min_le_right _ _⟩

/-! ### The events on Tail -/

theorem reportUnitLegal_hitState (hit : Option (Fin 64)) (s : State) (hs : ReportUnitLegal s) :
    ReportUnitLegal (hitState hit s) := by
  cases hit with
  | none => exact hs
  | some i =>
    have hset : ReportUnitLegal (s.setEntry i (hitEntry s.entries[i])) := hs.congr rfl
    dsimp only [hitState]
    rw [recordHit_eq]
    split
    · exact reportUnitLegal_occur _ _ _ hset
    · exact hset

theorem reportUnitLegal_chargeAction (a : Action) (size : Nat) (s : State) (hs : ReportUnitLegal s) :
    ReportUnitLegal (chargeAction a size s).1 := by
  unfold chargeAction
  cases a.meter with
  | none => exact hs
  | some m =>
    have hset : ReportUnitLegal (s.setMeter m (chargedMeter size s.meters[m])) := hs.congr rfl
    dsimp only
    rw [(chargeMeter_eq m size s).2]
    split
    · exact reportUnitLegal_occur _ _ _ hset
    · exact hset

/-- The verdict raises the occurrences of a hit and of a charge (R14). -/
theorem reportUnitLegal_formVerdict (l : Latched) (buf : List Byte) (s : State) (hs : ReportUnitLegal s) :
    ReportUnitLegal (formVerdict l buf s).1 :=
  reportUnitLegal_chargeAction (formVerdict l buf s).2.act (cellSize l.header.length) _
    (reportUnitLegal_hitState (findHit (keyOf l buf) s) s hs)

theorem reportUnitLegal_reachVerdict (r : Reception) (l : Latched) (s : State) (hs : ReportUnitLegal s) :
    ReportUnitLegal (reachVerdict r l s).1 := by
  unfold reachVerdict
  split
  · exact hs
  · exact (reportUnitLegal_formVerdict l r.buf s hs).congr rfl

theorem reportUnitLegal_addToBin (b n : Nat) (s : State) (hs : ReportUnitLegal s) :
    ReportUnitLegal (addToBin b n s) := by
  unfold addToBin
  dsimp only
  split
  · exact reportUnitLegal_occur _ _ _ (hs.congr rfl)
  · exact hs.congr rfl

theorem reportUnitLegal_countVerdict (v : Verdict) (h : Header) (buf : List Byte) (s : State)
    (hs : ReportUnitLegal s) : ReportUnitLegal (countVerdict v h buf s) := by
  unfold countVerdict countCell
  dsimp only
  repeat' split
  · exact hs
  · exact hs.congr rfl
  · exact hs.congr rfl
  · exact reportUnitLegal_addToBin _ _ _ (hs.congr rfl)
  · exact hs

theorem reportUnitLegal_countOutcome (o : CellOutcome) (s : State) (hs : ReportUnitLegal s) :
    ReportUnitLegal (countOutcome o s) := by
  cases o with
  | queueDropped => exact reportUnitLegal_occur _ _ _ (hs.congr rfl)
  | _ => exact hs.congr rfl

theorem reportUnitLegal_captureCell (v : Verdict) (o : CellOutcome) (h : Header) (buf : List Byte) (s : State)
    (hs : ReportUnitLegal s) : ReportUnitLegal (captureCell v o h buf s) := by
  unfold captureCell
  split
  · split
    · exact reportUnitLegal_occur _ _ _ (hs.congr rfl)
    · exact reportUnitLegal_occur _ _ _ (hs.congr rfl)
  · exact hs

theorem reportUnitLegal_disposeCell (v : Verdict) (h : Header) (buf : List Byte) (s : State)
    (hs : ReportUnitLegal s) : ReportUnitLegal (disposeCell v h buf s) := by
  have hcounted := reportUnitLegal_countVerdict v h buf s hs
  unfold disposeCell
  dsimp only
  generalize decideOutcome v (countVerdict v h buf s) = o
  have hcaptured := reportUnitLegal_captureCell v o h buf _ (reportUnitLegal_countOutcome o _ hcounted)
  obtain ⟨_, _, _, _, _, _, hclose⟩ := closeCell_frame o (rewritten v.act buf)
    (captureCell v o h buf (countOutcome o (countVerdict v h buf s)))
  exact hcaptured.congr (by rw [hclose]; rfl)

theorem reportUnit_failReception (c : Counter) (s : State) : reportUnit (failReception c s) = reportUnit s := by
  obtain ⟨_, _, _, _, _, h⟩ := failReception_frame c s
  rw [h]
  rfl

theorem reportUnitLegal_tailEnd (ok : Nat → List Byte → Bool) (s : State) (hs : ReportUnitLegal s) :
    ReportUnitLegal (tailEnd ok s) := by
  unfold tailEnd
  split
  · rename_i r _
    split
    · exact hs.congr (reportUnit_failReception _ s)
    · rename_i l _
      have hv := reportUnitLegal_reachVerdict r l s hs
      unfold endReception
      dsimp only
      split
      · exact reportUnitLegal_disposeCell _ _ _ _ hv
      · exact hv.congr (reportUnit_failReception _ _)
  · exact hs
  · exact hs.congr rfl

/-- A cell that finds no buffer raises POOL_EXHAUSTED (R97). -/
theorem reportUnitLegal_tailStartOfCell (s : State) (hs : ReportUnitLegal s) :
    ReportUnitLegal (tailStartOfCell s) := by
  unfold tailStartOfCell
  split
  · dsimp only
    split
    · exact hs.congr rfl
    · exact reportUnitLegal_occur _ _ _ (hs.congr rfl)
  · exact hs
  · exact hs

theorem reportUnitLegal_tailHeaderComplete (r : Reception) (s : State) (hs : ReportUnitLegal s) :
    ReportUnitLegal (tailHeaderComplete r s) := by
  unfold tailHeaderComplete
  dsimp only
  split
  · exact hs.congr rfl
  · split
    · exact reportUnitLegal_reachVerdict _ _ _ (hs.congr rfl)
    · exact hs.congr rfl

theorem reportUnitLegal_tailByte (b : Byte) (s : State) (hs : ReportUnitLegal s) : ReportUnitLegal (tailByte b s) := by
  unfold tailByte
  split
  · split
    · dsimp only
      split
      · split
        · exact reportUnitLegal_tailHeaderComplete _ _ (hs.congr rfl)
        · exact hs.congr rfl
      · split
        · exact reportUnitLegal_reachVerdict _ _ _ (hs.congr rfl)
        · exact hs.congr rfl
    · exact hs
  · exact hs
  · exact hs

/-! ### The grant -/

theorem due_of_namedReport {s : State} {r : SentReport} (h : namedReport s = some (.resend r)) :
    r ∈ s.sent ∧ r.cond = .due := by
  unfold namedReport at h
  split at h
  · rename_i x hfind
    cases h
    exact ⟨List.mem_of_find?_eq_some hfind, by simpa using List.find?_some hfind⟩
  · split at h
    · obtain ⟨_, _, hfirst⟩ := Option.map_eq_some_iff.1 h
      cases hfirst
    · cases h

theorem oldest_of_namedReport {s : State} {w : WaitingReport} (h : namedReport s = some (.first w)) :
    s.sent.length < 4 ∧ ∃ rest, s.waiting = w :: rest := by
  unfold namedReport at h
  split at h
  · cases h
  · split at h
    · rename_i hroom
      obtain ⟨_, hw, hfirst⟩ := Option.map_eq_some_iff.1 h
      cases hfirst
      exact ⟨of_decide_eq_true (Bool.and_eq_true_iff.1 hroom).2, List.head?_eq_some_iff.1 hw⟩
    · cases h

/-- The report source sends a due record again, or makes the oldest WAITING one a SENT one of a new sequence (R139,
R140). -/
theorem reportUnitLegal_grantReport {s : State} (hs : ReportUnitLegal s) (htx : s.headTx.noReport)
    (h : offers .report s = true) : ReportUnitLegal (grantTo .report s) := by
  obtain ⟨haddr, hnamed⟩ := (offers_report_iff_named s).1 h
  obtain ⟨a, ha⟩ := Option.ne_none_iff_exists'.1 haddr
  obtain ⟨n, hn⟩ := Option.isSome_iff_exists.1 hnamed
  cases n with
  | resend r =>
    obtain ⟨hr, hdue⟩ := due_of_namedReport hn
    rw [grantTo_report_resend ha hn]
    exact ⟨by simpa [changeSent] using hs.room, hs.waiting, hs.sent.resend htx hr hdue _, fun _ => haddr,
      Nat.zero_le _⟩
  | first w =>
    obtain ⟨hwindow, rest, hw⟩ := oldest_of_namedReport hn
    obtain ⟨_, _, hq, _, hfree⟩ := freeSequence_free (used := s.sent.map SentReport.seq)
      (by rw [List.length_map]; omega) s.nextSequence
    rw [List.length_map] at hq
    have hroom := hs.room
    have hwaiting := hs.waiting
    rw [hw] at hroom hwaiting
    rw [grantTo_report_first ha hn hw hq]
    refine ⟨?_, hwaiting.sublist (List.sublist_cons_self w rest), ?_, fun _ => haddr, Nat.zero_le _⟩
    · simp only [List.length_append, List.length_cons, List.length_nil] at hroom ⊢
      omega
    · exact (hs.sent.retransmit htx _).append hwindow (fun x hx hseq => hfree (List.mem_map.2 ⟨x, hx, hseq⟩))
        ⟨by simp [firstSend], fun hc => (by cases hc), fun _ => ⟨_, rfl⟩, hwaiting.occurrences w List.mem_cons_self⟩

/-- A grant to another source leaves the report queue alone (R122, R123). -/
theorem reportQueue_grantTo {g : GrantSource} (hg : g ≠ .report) (s : State) :
    reportQueue (grantTo g s) = reportQueue s := by
  have hyield : reportQueue (yieldNormal s) = reportQueue s := by
    rw [yieldNormal_eq]
    rfl
  cases g with
  | report => exact absurd rfl hg
  | reply =>
    rw [← hyield, grantTo, sendReply]
    split <;> rfl
  | urgent =>
    rw [← hyield, grantTo, sendUrgent]
    split <;> rfl
  | normal =>
    rw [grantTo, sendNormal]
    split <;> rfl

theorem reportUnitLegal_headGrant (s : State) (hs : ReportUnitLegal s) : ReportUnitLegal (headGrant s) := by
  by_cases hno : s.headTx ≠ .idle ∨ s.headPort.link ≠ .up ∨ selectSource s = none
  · rw [headGrant_none hno]
    exact hs
  · push Not at hno
    obtain ⟨hidle, hup, hsome⟩ := hno
    obtain ⟨g, hg⟩ := Option.ne_none_iff_exists'.1 hsome
    have htx : s.headTx.noReport := hidle ▸ HeadTx.noReport_idle
    rw [headGrant_some hidle hup hg]
    by_cases hreport : g = .report
    · subst hreport
      exact reportUnitLegal_grantReport hs htx (offers_of_selectSource hg)
    · exact hs.retransmit htx (reportQueue_grantTo hreport s)

/-! ### The end of a transmission and the report timers -/

theorem reportUnitLegal_endReply (s : State) (hs : ReportUnitLegal s) : ReportUnitLegal (endReply s) := by
  obtain ⟨rs, h | h⟩ := endReply_cases s
  · rw [h]
    exact hs.congr rfl
  · rw [h, ← deviceReset_after]
    exact reportUnitLegal_deviceReset _

/-- The record of a report that has left waits for its timer, and no other was in transmission (R142). -/
theorem reportUnitLegal_startReportTimer {s u : State} {q : Byte} {c : Cell} (hs : ReportUnitLegal s)
    (htx : s.headTx = .sending (.report q) c) (h : reportQueue u = reportQueue s) :
    ReportUnitLegal (startReportTimer q u) := by
  simp only [reportQueue, Prod.mk.injEq] at h
  obtain ⟨hwaiting, hsent, hlost, haddress⟩ := h
  refine ⟨?_, hwaiting ▸ hs.waiting, ?_, fun hne => ?_, hlost ▸ hs.lost⟩
  · simpa [startReportTimer, changeSent, hwaiting, hsent] using hs.room
  · have htimed := hs.sent
    rw [htx, ← hsent] at htimed
    exact htimed.time _ _
  · refine haddress ▸ hs.address fun hnil => hne ?_
    simp [startReportTimer, changeSent, hsent, hnil]

/-- The end of a transmission concerns the record of the report that was sent, if it was one (R125, R142). -/
theorem reportUnitLegal_headTxEnd (e : TxEnd) (s : State) (hs : ReportUnitLegal s) :
    ReportUnitLegal (headTxEnd e s) := by
  unfold headTxEnd
  split
  · exact hs
  · rename_i src cell htx
    have hcut : reportQueue { recordCut .head e cell s with headTx := .idle } = reportQueue s := by cases e <;> rfl
    have hidle (hsrc : ∀ q, src ≠ .report q) : ReportUnitLegal { recordCut .head e cell s with headTx := .idle } := by
      refine hs.retransmit (fun q c hc => ?_) hcut
      rw [htx] at hc
      cases hc
      exact hsrc q rfl
    generalize ({ recordCut .head e cell s with headTx := .idle } : State) = u at hcut hidle
    cases src with
    | report q => exact reportUnitLegal_startReportTimer hs htx hcut
    | reply => exact reportUnitLegal_endReply u (hidle (by simp))
    | urgent =>
      obtain ⟨_, _, _, h⟩ := endUrgent_frame e u
      exact (hidle (by simp)).congr (by dsimp only; rw [h]; rfl)
    | normal =>
      obtain ⟨_, _, _, _, h⟩ := endNormal_frame e u
      exact (hidle (by simp)).congr (by dsimp only; rw [h]; rfl)
    | detached => exact hidle (by simp)

/-- SENT records that are taken away leave the rest legal (R143, R144). -/
theorem ReportUnitLegal.remove {s u : State} (hs : ReportUnitLegal s) {l : List SentReport} (hl : l.Sublist s.sent)
    (h : reportUnit u = reportUnit { s with sent := l }) : ReportUnitLegal u := by
  have hremoved : ReportUnitLegal { s with sent := l } :=
    ⟨(Nat.add_le_add_left hl.length_le _).trans hs.room, hs.waiting, hs.sent.sublist hl,
      fun hne => hs.address fun hnil => hne (List.sublist_nil.1 (hnil ▸ hl)), hs.lost⟩
  exact hremoved.congr h

/-- An expiry makes a resend due after at most 3 sends, and removes the record after 4 (R143). -/
theorem reportUnitLegal_expireSequence (q : Byte) (s : State) (hs : ReportUnitLegal s) :
    ReportUnitLegal (expireSequence q s) := by
  unfold expireSequence
  split
  · rename_i r hfind
    have hr : r ∈ s.sent := List.mem_of_find?_eq_some hfind
    obtain hsends | hsends := Nat.lt_or_ge 3 r.sends
    · rw [expireRecord_abandoned hsends]
      exact hs.remove List.filter_sublist rfl
    · rw [expireRecord_due hsends]
      refine ⟨?_, hs.waiting, hs.sent.expire hr hsends, fun _ => hs.address (List.ne_nil_of_mem hr), hs.lost⟩
      have hlt := length_filter_seq_lt hr
      have hroom := hs.room
      simp only [List.length_append, List.length_singleton]
      omega
  · exact hs

/-! ### The taking of a request -/

/-- The requests that write the match table reach it and the action table alone (R16, R18 to R24). -/
theorem ownerAnswer_writesEntries_frame {k : Kind} (hk : k.writesEntries = true) (args : List Byte) (s : State) :
    ∃ x0 x1, (ownerAnswer k args s).st = { s with entries := x0, actions := x1 } := by
  cases k with
  | entryWrite =>
    dsimp only [ownerAnswer, answerEntryWrite, refusal]
    iterate 6 (split; · exact ⟨_, _, rfl⟩)
    exact writeEntry_frame _ _ s
  | entryRetire =>
    dsimp only [ownerAnswer, answerEntryRetire, refusal]
    split
    · exact ⟨_, _, rfl⟩
    · exact retireEntry_frame _ s
  | batchActivate =>
    dsimp only [ownerAnswer, answerBatchActivate, refusal]
    split
    · dsimp only
      exact atEveryPosition_frame _ (activateAt_frame _ _) s
    · exact ⟨_, _, rfl⟩
  | batchRetire =>
    dsimp only [ownerAnswer, answerBatchRetire, refusal]
    split
    · exact ⟨_, _, rfl⟩
    · dsimp only
      exact atEveryPosition_frame _ (retireIfIn_frame _) s
  | batchDiscard =>
    dsimp only [ownerAnswer, answerBatchDiscard, refusal]
    split
    · exact ⟨_, _, rfl⟩
    · dsimp only
      exact atEveryPosition_frame _ (discardIfIn_frame _) s
  | _ => cases hk

/-- No owning rule but that of REPORT_ACK and that of ADDRESS_ASSIGN reaches the report unit or the address (R155). -/
theorem reportUnit_ownerAnswer {k : Kind} (hr : k ≠ .reportAck) (ha : k ≠ .addressAssign) (args : List Byte)
    (s : State) : reportUnit (ownerAnswer k args s).st = reportUnit s := by
  cases hk : k.writesEntries with
  | true =>
    obtain ⟨_, _, h⟩ := ownerAnswer_writesEntries_frame hk args s
    rw [h]
    rfl
  | false =>
    cases k with
    | reportAck => exact absurd rfl hr
    | addressAssign => exact absurd rfl ha
    | settingWrite =>
      dsimp only [ownerAnswer, answerSettingWrite, refusal]
      iterate 3 (split; · rfl)
      obtain ⟨_, _, _, h⟩ := setSetting_frame _ _ s
      rw [h]
      rfl
    | entryWrite | entryRetire | batchActivate | batchRetire | batchDiscard => cases hk
    | _ =>
      dsimp only [ownerAnswer, answerPing, answerIdentRead, answerSettingRead, answerEntryRead, answerActionWrite,
        answerActionRead, answerActionClear, answerMeterWrite, answerMeterRead, answerBinruleWrite, answerBinruleRead,
        answerBinsRead, answerBinsReadClear, answerBinsClear, answerCaptureFetch, answerCaptureRelease,
        answerStatsRead, answerStatsClear, answerDeviceReset, refusal]
      repeat' split
      all_goals rfl

theorem reportUnitLegal_answerReportAck (args : List Byte) (s : State) (hs : ReportUnitLegal s) :
    ReportUnitLegal (answerReportAck args s).st := by
  unfold answerReportAck
  split
  · exact hs.remove List.filter_sublist rfl
  · exact hs

/-- ADDRESS_ASSIGN takes no address away (R168). -/
theorem reportUnitLegal_answerAddressAssign (args : List Byte) (s : State) (hs : ReportUnitLegal s) :
    ReportUnitLegal (answerAddressAssign args s).st := by
  unfold answerAddressAssign
  split
  · exact hs
  · exact ⟨hs.room, hs.waiting, hs.sent, fun _ => Option.some_ne_none _, hs.lost⟩

theorem reportUnitLegal_ownerAnswer (k : Kind) (args : List Byte) (s : State) (hs : ReportUnitLegal s) :
    ReportUnitLegal (ownerAnswer k args s).st := by
  by_cases hr : k = .reportAck
  · subst hr
    exact reportUnitLegal_answerReportAck args s hs
  · by_cases ha : k = .addressAssign
    · subst ha
      exact reportUnitLegal_answerAddressAssign args s hs
    · exact hs.congr (reportUnit_ownerAnswer hr ha args s)

theorem reportUnitLegal_keptByTakingParts : KeptByTakingParts ReportUnitLegal where
  reset s _ := reportUnitLegal_deviceReset s
  owner := reportUnitLegal_ownerAnswer
  count _ _ _ hs := hs.congr rfl
  queue _ _ _ hs := hs.congr rfl
  store _ _ hs := hs.congr rfl

/-! ### The events on Head -/

theorem reportUnitLegal_takePayload (f : Form) (payload : List Byte) (s : State) (hs : ReportUnitLegal s) :
    ReportUnitLegal (takePayload f payload s) := by
  unfold takePayload
  split
  · exact reportUnitLegal_keptByTakingParts.take f _ _ _ s hs
  · exact hs.congr rfl

theorem reportUnit_joinDownstream (c : Cell) (s : State) : reportUnit (joinDownstream c s) = reportUnit s := by
  obtain ⟨_, _, h⟩ := joinDownstream_frame c s
  rw [h]
  rfl

theorem reportUnitLegal_acceptDownstream (cell : Cell) (s : State) (hs : ReportUnitLegal s) :
    ReportUnitLegal (acceptDownstream cell s) := by
  unfold acceptDownstream
  dsimp only
  split
  · exact reportUnitLegal_takePayload _ _ _ (hs.congr rfl)
  · exact hs.congr (reportUnit_joinDownstream _ _)
  · exact reportUnitLegal_takePayload _ _ _ (hs.congr (reportUnit_joinDownstream _ _))

theorem reportUnitLegal_headEnd (ok : Nat → List Byte → Bool) (s : State) (hs : ReportUnitLegal s) :
    ReportUnitLegal (headEnd ok s) := by
  unfold headEnd
  split
  · dsimp only
    split
    · exact hs.congr rfl
    · split
      · exact reportUnitLegal_acceptDownstream _ _ (hs.congr rfl)
      · exact hs.congr rfl
  · exact hs
  · exact hs.congr rfl

/-! ### Every event -/

theorem reportUnitLegal_keptByPortParts : KeptByPortParts ReportUnitLegal where
  port p x s hs := hs.congr (by cases p <;> rfl)
  start p s hs := by
    cases p with
    | head =>
      obtain ⟨_, h⟩ := headStartOfCell_frame s
      exact hs.congr (by rw [startEvent, h]; rfl)
    | tail => exact reportUnitLegal_tailStartOfCell s hs
  byte p b s hs := by
    cases p with
    | head =>
      obtain ⟨_, _, h⟩ := headByte_frame b s
      exact hs.congr (by rw [byteEvent, h]; rfl)
    | tail => exact reportUnitLegal_tailByte b s hs
  stop p s hs := by
    cases p with
    | head => exact reportUnitLegal_headEnd _ s hs
    | tail => exact reportUnitLegal_tailEnd _ s hs
  fail p s hs := by
    cases p with
    | head => exact reportUnitLegal_headEnd (fun _ _ => false) s hs
    | tail => exact reportUnitLegal_tailEnd (fun _ _ => false) s hs
  abort p s hs := by
    cases p with
    | head =>
      obtain ⟨_, _, h⟩ := headAbort_frame s
      exact hs.congr (by rw [abortEvent, h]; rfl)
    | tail =>
      obtain ⟨_, _, _, _, _, h⟩ := tailAbort_frame s
      exact hs.congr (by rw [abortEvent, h]; rfl)
  txAbort p s hs := by
    cases p with
    | head => exact reportUnitLegal_headTxEnd _ s hs
    | tail =>
      obtain ⟨_, _, _, _, _, h⟩ := tailTxEnd_frame .abort s
      exact hs.congr (by rw [abortTransmission, h]; rfl)
  link := reportUnitLegal_occur .linkChanged

theorem reportUnitLegal_keptByEvents : KeptByEvents ReportUnitLegal where
  pending _ _ hs := hs.congr rfl
  powerOn _ _ := ((reportUnitLegal_iff _).2 reportsLegal_reset).congr rfl
  hold _ hs := hs.congr rfl
  freeIndex _ _ hs := hs.congr rfl
  grant := reportUnitLegal_headGrant
  start s hs := by
    obtain ⟨_, h⟩ := tailStart_frame s
    exact hs.congr (by rw [h]; rfl)
  headTx := reportUnitLegal_headTxEnd
  tailTx e s hs := by
    obtain ⟨_, _, _, _, _, h⟩ := tailTxEnd_frame e s
    exact hs.congr (by rw [h]; rfl)
  symbol := reportUnitLegal_keptByPortParts.receive
  detect := reportUnitLegal_keptByPortParts.detect
  lose := reportUnitLegal_keptByPortParts.lose
  take := reportUnitLegal_keptByTakingParts.take
  refill s hs := by
    obtain ⟨_, _, h⟩ := expireRefill_frame s
    exact hs.congr (by rw [h]; rfl)
  expire := reportUnitLegal_expireSequence
  advance _ hs := hs.congr rfl

/-- Settles O56: each kind of event keeps the report queue legal, and so does every step. -/
theorem stepKeepsTheReportQueueLegal : Obligations.StepKeepsTheReportQueueLegal := by
  intro s t hs he
  rw [← reportUnitLegal_iff] at hs ⊢
  exact reportUnitLegal_keptByEvents.step s t hs he

end Sys2Proof.Machine
end

section
/-! PROOF. O8, O9, O10 and O48: the common rules of a taking, one equation per case of R154 and R163, and the reply
memory. -/

namespace Sys2Proof.Machine

/-! ### Kinds -/

theorem Kind.broadcast_iff (k : Kind) : k.broadcast = true ↔
    k ∈ [Kind.batchActivate, .batchRetire, .batchDiscard, .statsClear, .deviceReset, .ping] := by
  cases k <;> decide

theorem Kind.code_toNat_lt (k : Kind) : k.code.toNat < 28 := by cases k <;> decide

theorem kindOf_of_le {c : Byte} (h : 28 ≤ c.toNat) : kindOf c = none := by
  rw [kindOf, List.find?_eq_none]
  intro k _ hcode
  have hlt := k.code_toNat_lt
  rw [eq_of_beq hcode] at hlt
  omega

/-- DEVICE_RESET needs no arguments (R215), so no payload is too short for it. -/
theorem Kind.ne_deviceReset_of_short {k : Kind} {args : List Byte} (h : args.length + 2 < k.least) :
    k ≠ .deviceReset := by
  rintro rfl
  exact absurd h (Nat.not_lt.2 (Nat.le_add_left _ _))

/-- A payload that is too short is answered with the least length of its kind (R155). -/
theorem executeRequest_short {k : Kind} {args : List Byte} (s : State) (h : args.length + 2 < k.least) :
    executeRequest k.code args s = ⟨s, .badLength, [byteOf k.least]⟩ := by
  rw [executeRequest_code, if_pos h]

theorem executeRequest_unknown {code : Byte} (h : kindOf code = none) (args : List Byte) (s : State) :
    executeRequest code args s = refusal .badRequest s := by
  rw [executeRequest, h]

/-! ### The cases of an addressed request (R154) -/

theorem takeAddressed_dropped {s : State} (h : s.resetPending = true ∨ 4 ≤ s.replies.length) (code tag : Byte)
    (args : List Byte) : takeAddressed code tag args s = s.count .mgmtDropped := by
  unfold takeAddressed
  split
  · rfl
  · rename_i hpending
    exact if_pos (h.resolve_left hpending)

/-- The first record of the tag and kind answers the request (R154, case 3). -/
theorem stored_eq_some {older newer : List MemoryRecord} {m : MemoryRecord} {code tag : Byte} {s : State}
    (hmem : s.memory = older ++ m :: newer) (hfirst : ∀ x ∈ older, ¬(x.tag = tag ∧ x.kind = code))
    (htag : m.tag = tag) (hkind : m.kind = code) : stored code tag s = some m := by
  rw [stored, hmem, List.find?_eq_some_iff_append]
  exact ⟨by simp [htag, hkind], older, newer, rfl, by simpa [imp_iff_not_or] using hfirst⟩

theorem takeAddressed_replayed {code tag : Byte} {m : MemoryRecord} {s : State} (hpending : s.resetPending = false)
    (hroom : s.replies.length < 4) (hstored : stored code tag s = some m) (args : List Byte) :
    takeAddressed code tag args s = replay m s := by
  have hfree : ¬Config.replyPlaces ≤ s.replies.length := Nat.not_le.2 hroom
  unfold takeAddressed
  rw [if_neg (by simp [hpending]), if_neg hfree, hstored]

/-- A code that names no kind is not that of DEVICE_RESET, so the request is answered without the mark (R156). -/
theorem executeAddressed_unknown {code : Byte} (h : kindOf code = none) (tag : Byte) (args : List Byte) (s : State) :
    executeAddressed code tag args s = answered code tag .badRequest [] s := by
  have hcode : code ≠ Kind.deviceReset.code := by
    rintro rfl
    rw [kindOf_code] at h
    cases h
  unfold executeAddressed
  rw [if_neg (fun hh => hcode hh.1), beq_false_of_ne hcode, executeRequest_unknown h, reply_eq_answered]
  rfl

/-! ### The cases of a broadcast (R163) -/

theorem takeBroadcast_dropped {s : State} (h : s.resetPending = true) (code : Byte) (args : List Byte) :
    takeBroadcast code args s = s.count .mgmtDropped := if_pos h

theorem takeBroadcast_refused {code : Byte} {s : State} (hpending : s.resetPending = false)
    (hkind : ∀ k, kindOf code = some k → k.broadcast = false) (args : List Byte) :
    takeBroadcast code args s = s.count .broadcastRefused := by
  unfold takeBroadcast
  rw [if_neg (by simp [hpending])]
  cases hcode : kindOf code with
  | none => rfl
  | some k =>
    dsimp only
    rw [hkind k hcode]
    rfl

theorem takeBroadcast_heard {k : Kind} {s : State} (h : Hears s) (hb : k.broadcast = true) (args : List Byte) :
    takeBroadcast k.code args s = executeBroadcast k args s := by
  unfold takeBroadcast
  rw [if_neg (by simp [h.noReset]), kindOf_code]
  exact if_pos hb

theorem executeBroadcast_short {k : Kind} {args : List Byte} (s : State) (h : args.length + 2 < k.least) :
    executeBroadcast k args s = heardBadly s := by
  unfold executeBroadcast
  rw [if_neg (Kind.ne_deviceReset_of_short h), executeRequest_short s h]
  rfl

/-! ### The request commands -/

theorem exec_addressed {s u : State} (h : s.resetHeld = false) {k : Kind} {tag : Byte} {args : List Byte}
    (ht : takeAddressed k.code tag args s = u) :
    exec (requestOf k .addressed tag args) s = .next (settle u) :=
  (exec_requestOf k .addressed tag args s h).trans (next_settle_congr ht)

theorem exec_broadcast {s u : State} (h : s.resetHeld = false) {k : Kind} {tag : Byte} {args : List Byte}
    (ht : takeBroadcast k.code args s = u) :
    exec (requestOf k .broadcast tag args) s = .next (settle u) :=
  (exec_requestOf k .broadcast tag args s h).trans (next_settle_congr ht)

/-- Settles O8: the cases of R154 and R163 that come before the execution. -/
theorem requestsAreDroppedReplayedOrRefused : Obligations.RequestsAreDroppedReplayedOrRefused := by
  refine ⟨fun k tag args s hrun => ⟨fun hdrop => ?_, fun hpending hroom older newer m hmem hfirst htag hkind => ?_⟩,
    fun k tag args s hrun => ⟨fun hpending => ?_, fun hpending hkind => ?_⟩⟩
  · exact exec_addressed hrun (takeAddressed_dropped hdrop k.code tag args)
  · exact exec_addressed hrun (takeAddressed_replayed hpending hroom (stored_eq_some hmem hfirst htag hkind) args)
  · exact exec_broadcast hrun (takeBroadcast_dropped hpending k.code args)
  · refine exec_broadcast hrun (takeBroadcast_refused hpending (fun k' hk' => ?_) args)
    obtain rfl : k = k' := Option.some.inj ((kindOf_code k).symm.trans hk')
    exact Bool.eq_false_iff.2 (fun hb => hkind (k.broadcast_iff.1 hb))

/-- Settles O9: the table of R215, and the two refusals of R155 in both forms. -/
theorem badRequestsReachNoBlock : Obligations.BadRequestsReachNoBlock := by
  refine ⟨⟨rfl, kindOf_code, by decide, fun c => kindOf_of_le⟩,
    fun k tag args s hshort => ⟨fun h => ?_, fun h hb => ?_⟩,
    fun code tag args s hcode => ⟨fun h => ?_, fun h => ?_⟩⟩
  · refine exec_addressed h.running ((takeRequest_accepted h (Kind.ne_deviceReset_of_short hshort)).trans ?_)
    rw [executeRequest_short s hshort]
  · exact exec_broadcast h.running ((takeBroadcast_heard h hb args).trans (executeBroadcast_short s hshort))
  · exact (takeAddressed_accepted h).trans (executeAddressed_unknown hcode tag args s)
  · exact takeBroadcast_refused h.noReset (fun k hk => absurd (hcode.symm.trans hk) (by simp)) args

/-- Settles O48: the taking inside a request command is that of the payload with its code and tag in front. -/
theorem handedOverPayloadIsTheRequestCommand : Obligations.HandedOverPayloadIsTheRequestCommand := by
  intro f k tag args payload s hrun
  refine ⟨exec_requestOf k f tag args s hrun, fun hshort => ?_⟩
  match payload, hshort with
  | [], _ => rfl
  | [_], _ => rfl
  | _ :: _ :: _, hshort => exact absurd hshort (by simp)

/-! ### The reply memory (R157) -/

theorem storeMemory_replaces {m : MemoryRecord} {l : List MemoryRecord} (h : ∃ x ∈ l, x.tag = m.tag) :
    storeMemory m l = l.filter (fun x => x.tag ≠ m.tag) ++ [m] := by
  have hany : (l.any fun x => x.tag == m.tag) = true := by simpa using h
  rw [storeMemory, if_pos hany]
  simp [bne, beq_eq_decide]

/-- A record of a new tag takes a free place, or that of the oldest. -/
theorem storeMemory_new {m : MemoryRecord} {l : List MemoryRecord} (h : ∀ x ∈ l, x.tag ≠ m.tag) :
    storeMemory m l = if 4 ≤ l.length then l.drop 1 ++ [m] else l ++ [m] := by
  have hany : ¬(l.any fun x => x.tag == m.tag) = true := by simpa using h
  rw [storeMemory, if_neg hany]
  rfl

/-- Settles O10: the three cases of R157; that the memory stays legal stands with O57. -/
theorem replyMemoryKeepsTheLastFourTags : Obligations.ReplyMemoryKeepsTheLastFourTags := by
  intro m l
  refine ⟨storeMemory_replaces, fun hnew hroom => ?_, fun hnew hfull => ?_, fun hroom htags => ?_⟩
  · rw [storeMemory_new hnew, if_neg (Nat.not_le.2 hroom)]
  · rw [storeMemory_new hnew, if_pos hfull.ge]
  · obtain ⟨hroom', htags'⟩ := (MemoryLegal.mk hroom htags).store m
    exact ⟨hroom', htags'⟩

end Sys2Proof.Machine
end

section
/-! PROOF. O11 and O26: PING, IDENT_READ, ADDRESS_ASSIGN and the two statistics requests, one equation per answer. -/

namespace Sys2Proof.Machine

/-! ### The part itself -/

/-- The capacities of R166 in their bytes. -/
theorem answerIdentRead_eq (args : List Byte) (s : State) :
    answerIdentRead args s = ⟨s, .ok, [0x02, 0x40, 1, 64, 32, 16, 8, 0x04, 0x00, 8, 24, 16]⟩ := rfl

/-- 0 stands for UNASSIGNED (R168). -/
theorem addressCode_eq (a : Option Byte) : addressCode a = a.getD 0 := by cases a <;> rfl

section
variable {a : Byte} (more : List Byte) (s : State)

theorem answerAddressAssign_inRange (hlow : 1 ≤ a.toNat) (hhigh : a.toNat ≤ 0xEF) :
    answerAddressAssign (a :: more) s = ⟨{ s with nodeAddress := some a }, .ok, [s.nodeAddress.getD 0, a]⟩ := by
  have hin : ¬(argNat (a :: more) 0 < 1 ∨ 0xEF < argNat (a :: more) 0) := by
    rw [argNat_zero_cons]
    omega
  rw [answerAddressAssign, if_neg hin, argByte_zero_cons, addressCode_eq]

theorem answerAddressAssign_badValue (h : a.toNat < 1 ∨ 0xEF < a.toNat) :
    answerAddressAssign (a :: more) s = refusal .badValue s := if_pos h

end

/-- Settles O11: the answers of the three requests. -/
theorem pingIdentReadAndAddressAssign : Obligations.PingIdentReadAndAddressAssign := by
  refine ⟨fun tag args s => ⟨fun h => ?_, fun h => ?_, fun h => ?_⟩,
    fun tag a more s h => ⟨fun hlow hhigh => ?_, fun hout => ?_⟩⟩
  · exact exec_answered (k := .ping) h (by decide) (Nat.le_add_left _ _) rfl
  · exact exec_heard_ok (k := .ping) h rfl (by decide) (Nat.le_add_left _ _) rfl
  · exact exec_answered (k := .identRead) h (by decide) (Nat.le_add_left _ _) (answerIdentRead_eq args s)
  · exact exec_answered (k := .addressAssign) h (by decide) (Nat.le_add_left _ _)
      (answerAddressAssign_inRange more s hlow hhigh)
  · exact exec_answered (k := .addressAssign) h (by decide) (Nat.le_add_left _ _)
      (answerAddressAssign_badValue more s hout)

/-! ### Statistics -/

theorem groupBytes_past {g : Nat} (h : 3 < g) (s : State) : groupBytes g s = none := by
  match g, h with
  | _ + 4, _ => rfl

/-- A group that exists is answered behind its number (R202). -/
theorem answerStatsRead_group {g : Byte} {bs : List Byte} {s : State} (h : groupBytes g.toNat s = some bs)
    (more : List Byte) : answerStatsRead (g :: more) s = ⟨s, .ok, g :: bs⟩ := by
  rw [answerStatsRead, argNat_zero_cons, h]
  rfl

theorem answerStatsRead_past {g : Byte} (h : 3 < g.toNat) (more : List Byte) (s : State) :
    answerStatsRead (g :: more) s = refusal .badIndex s := by
  rw [answerStatsRead, argNat_zero_cons, groupBytes_past h]

theorem exec_statsRead_group {tag g n : Byte} {bs : List Byte} {s : State} (h : Accepts 25 tag s) (hg : g = n)
    (hbs : groupBytes n.toNat s = some bs) (more : List Byte) :
    exec (.statsRead .addressed tag (g :: more)) s = .next (settle (answered 25 tag .ok (n :: bs) s)) := by
  subst hg
  exact exec_answered (k := .statsRead) h (by decide) (Nat.le_add_left _ _) (answerStatsRead_group hbs more)

/-- carried is set to the cells in reception and in the two queues (R201). -/
theorem carriedNow_eq (s : State) :
    carriedNow s = BitVec.ofNat 32 (receivingTerm s.tailRx + s.urgent.length + s.normal.length) := by
  unfold carriedNow
  cases s.tailRx <;> rfl

/-- Settles O26: the four groups and the position past them, and the clear in both forms. -/
theorem statsReadAndClear : Obligations.StatsReadAndClear := by
  refine ⟨fun tag g more s t h ht => ?_, fun tag args s carried hcarried => ?_⟩
  · subst ht
    exact ⟨fun hg => exec_statsRead_group h hg rfl more, fun hg => exec_statsRead_group h hg rfl more,
      fun hg => exec_statsRead_group h hg rfl more, fun hg => exec_statsRead_group h hg rfl more,
      fun hg => exec_answered (k := .statsRead) h (by decide) (Nat.le_add_left _ _) (answerStatsRead_past hg more s)⟩
  · rw [← carriedNow_eq] at hcarried
    subst hcarried
    exact ⟨fun h => exec_answered (k := .statsClear) h (by decide) (Nat.le_add_left _ _) rfl,
      fun h => exec_heard_ok (k := .statsClear) h rfl (by decide) (Nat.le_add_left _ _) rfl⟩

end Sys2Proof.Machine
end

section
/-! PROOF. O1 and O2: a step runs the command at the front, and no command touches the queue of waiting commands. The
events are `State → State`, so that every command answers a next state is the shape of `exec`. -/

namespace Sys2Proof.Machine

/-- Settles O1: by the two cases of the queue. -/
theorem stepRunsTheFrontCommand : Obligations.StepRunsTheFrontCommand := by
  refine ⟨fun _ _ _ => rfl, fun s hempty => ?_⟩
  rw [step, hempty]

/-! ### Events that leave the queue of commands alone -/

/-- The commands that wait are those of `q`. -/
def QueueIs (q : List Instr) (s : State) : Prop := s.pending = q

section
variable {q : List Instr}

theorem QueueIs.congr {s u : State} (hs : QueueIs q s) (h : u.pending = s.pending) : QueueIs q u := h.trans hs

theorem queueIs_deviceReset (s : State) (hs : QueueIs q s) : QueueIs q (deviceReset s) :=
  hs.congr (by rw [deviceReset_eq]; rfl)

theorem queueIs_headTxEnd (e : TxEnd) (s : State) (hs : QueueIs q s) : QueueIs q (headTxEnd e s) := by
  unfold headTxEnd
  split
  · exact hs
  · rename_i src cell _
    have hcut : QueueIs q { recordCut .head e cell s with headTx := .idle } := hs.congr (by cases e <;> rfl)
    generalize ({ recordCut .head e cell s with headTx := .idle } : State) = u at hcut
    cases src with
    | urgent =>
      obtain ⟨_, _, _, h⟩ := endUrgent_frame e u
      exact hcut.congr (by dsimp only; rw [h])
    | normal =>
      obtain ⟨_, _, _, _, h⟩ := endNormal_frame e u
      exact hcut.congr (by dsimp only; rw [h])
    | reply =>
      obtain ⟨rs, h | h⟩ := endReply_cases u
      · exact hcut.congr (by dsimp only; rw [h])
      · dsimp only
        rw [h, ← deviceReset_after]
        exact queueIs_deviceReset _ (hcut.congr rfl)
    | report _ => exact hcut.congr rfl
    | detached => exact hcut

theorem queueIs_tailTxEnd (e : TxEnd) (s : State) (hs : QueueIs q s) : QueueIs q (tailTxEnd e s) := by
  obtain ⟨_, _, _, _, _, h⟩ := tailTxEnd_frame e s
  exact hs.congr (by rw [h])

theorem queueIs_tailEnd (ok : Nat → List Byte → Bool) (s : State) (hs : QueueIs q s) : QueueIs q (tailEnd ok s) := by
  obtain ⟨_, _, _, _, _, _, _, _, _, _, _, _, _, _, h⟩ := tailEnd_frame ok s
  exact hs.congr (by rw [h])

theorem queueIs_ownerAnswer (k : Kind) (args : List Byte) (s : State) (hs : QueueIs q s) :
    QueueIs q (ownerAnswer k args s).st := by
  by_cases hk : k = .statsClear
  · subst hk
    exact hs.congr rfl
  · obtain ⟨_, _, _, _, _, _, _, _, _, _, _, h⟩ := ownerAnswer_frame hk args s
    exact hs.congr (by rw [h])

theorem queueIs_keptByTakingParts : KeptByTakingParts (QueueIs q) where
  reset := queueIs_deviceReset
  owner := queueIs_ownerAnswer
  count _ _ _ hs := hs.congr rfl
  queue _ _ _ hs := hs.congr rfl
  store _ _ hs := hs.congr rfl

theorem queueIs_takePayload (f : Form) (payload : List Byte) (s : State) (hs : QueueIs q s) :
    QueueIs q (takePayload f payload s) := by
  unfold takePayload
  split
  · exact queueIs_keptByTakingParts.take f _ _ _ s hs
  · exact hs.congr rfl

theorem queueIs_joinDownstream (c : Cell) (s : State) (hs : QueueIs q s) : QueueIs q (joinDownstream c s) := by
  obtain ⟨_, _, h⟩ := joinDownstream_frame c s
  exact hs.congr (by rw [h])

theorem queueIs_acceptDownstream (cell : Cell) (s : State) (hs : QueueIs q s) :
    QueueIs q (acceptDownstream cell s) := by
  unfold acceptDownstream
  dsimp only
  split
  · exact queueIs_takePayload _ _ _ (hs.congr rfl)
  · exact queueIs_joinDownstream _ _ (hs.congr rfl)
  · exact queueIs_takePayload _ _ _ (queueIs_joinDownstream _ _ (hs.congr rfl))

theorem queueIs_headEnd (ok : Nat → List Byte → Bool) (s : State) (hs : QueueIs q s) : QueueIs q (headEnd ok s) := by
  unfold headEnd
  split
  · dsimp only
    split
    · exact hs.congr rfl
    · split
      · exact queueIs_acceptDownstream _ _ (hs.congr rfl)
      · exact hs.congr rfl
  · exact hs
  · exact hs.congr rfl

theorem queueIs_keptByPortParts : KeptByPortParts (QueueIs q) where
  port p x s hs := hs.congr (State.setPort_pending s p x)
  start p s hs := by
    cases p with
    | head =>
      obtain ⟨_, h⟩ := headStartOfCell_frame s
      exact hs.congr (by rw [startEvent, h])
    | tail =>
      obtain ⟨_, _, _, _, _, h⟩ := tailStartOfCell_frame s
      exact hs.congr (by rw [startEvent, h])
  byte p b s hs := by
    cases p with
    | head =>
      obtain ⟨_, _, h⟩ := headByte_frame b s
      exact hs.congr (by rw [byteEvent, h])
    | tail =>
      obtain ⟨_, _, _, _, _, _, _, h⟩ := tailByte_frame b s
      exact hs.congr (by rw [byteEvent, h])
  stop p s hs := by
    cases p with
    | head => exact queueIs_headEnd _ s hs
    | tail => exact queueIs_tailEnd _ s hs
  fail p s hs := by
    cases p with
    | head => exact queueIs_headEnd (fun _ _ => false) s hs
    | tail => exact queueIs_tailEnd (fun _ _ => false) s hs
  abort p s hs := by
    cases p with
    | head =>
      obtain ⟨_, _, h⟩ := headAbort_frame s
      exact hs.congr (by rw [abortEvent, h])
    | tail =>
      obtain ⟨_, _, _, _, _, h⟩ := tailAbort_frame s
      exact hs.congr (by rw [abortEvent, h])
  txAbort p s hs := by
    cases p with
    | head => exact queueIs_headTxEnd _ s hs
    | tail => exact queueIs_tailTxEnd _ s hs
  link n s hs := by
    obtain ⟨_, _, _, h⟩ := occur_frame .linkChanged n s
    exact hs.congr (by rw [h])

theorem queueIs_headGrant (s : State) (hs : QueueIs q s) : QueueIs q (headGrant s) := by
  obtain ⟨_, _, _, _, _, _, _, h⟩ := headGrant_frame s
  exact hs.congr (by rw [h])

theorem queueIs_tailStart (s : State) (hs : QueueIs q s) : QueueIs q (tailStart s) := by
  obtain ⟨_, h⟩ := tailStart_frame s
  exact hs.congr (by rw [h])

theorem queueIs_settle (s : State) (hs : QueueIs q s) : QueueIs q (settle s) :=
  queueIs_tailStart _ (queueIs_headGrant s hs)

theorem queueIs_expireRefill (s : State) (hs : QueueIs q s) : QueueIs q (expireRefill s) := by
  obtain ⟨_, _, h⟩ := expireRefill_frame s
  exact hs.congr (by rw [h])

theorem queueIs_expireSequence (b : Byte) (s : State) (hs : QueueIs q s) : QueueIs q (expireSequence b s) := by
  obtain ⟨_, _, h⟩ := expireSequence_frame b s
  exact hs.congr (by rw [h])

theorem queueIs_expireEach (l : List Byte) (s : State) (hs : QueueIs q s) : QueueIs q (expireEach l s) := by
  induction l generalizing s with
  | nil => exact hs
  | cons b l ih => exact ih _ (queueIs_settle _ (queueIs_expireSequence b s hs))

theorem queueIs_tick (s : State) (hs : QueueIs q s) :
    QueueIs q (advanceTime (expireOverdue (expireRefill s))) :=
  (queueIs_expireEach _ _ (queueIs_expireRefill s hs)).congr rfl

end

/-! ### The commands -/

/-- A command answers a next state with the same queue. -/
def AnswersKeepingQueue (r : Result) (s : State) : Prop := ∃ t : State, r = .next t ∧ t.pending = s.pending

/-- A command that is an event of a running part. -/
theorem answers_unlessHeld {f : State → State} (hf : ∀ s, QueueIs s.pending (f s)) (s : State) :
    AnswersKeepingQueue (.next (unlessHeld f s)) s :=
  ⟨_, rfl, unlessHeld_keeps (Inv := QueueIs s.pending) (fun u hu => (hf u).trans hu) s rfl⟩

/-- A command that is an event with the decisions at its close (log 3). -/
theorem answers_closed {f : State → State} (hf : ∀ s, QueueIs s.pending (f s)) (s : State) :
    AnswersKeepingQueue (.next (unlessHeld (fun s => settle (f s)) s)) s :=
  answers_unlessHeld (fun s => queueIs_settle _ (hf s)) s

theorem answers_symbolCommand (p : Side) (y : Symbol) (s : State) : AnswersKeepingQueue (symbolCommand p y s) s :=
  answers_closed (fun s => queueIs_keptByPortParts.receive p y s rfl) s

theorem answers_takeKind (k : Kind) (f : Form) (tag : Byte) (args : List Byte) (s : State) :
    AnswersKeepingQueue (takeKind k f tag args s) s :=
  answers_closed (fun s => queueIs_keptByTakingParts.take f k.code tag args s rfl) s

theorem answers_resetnHeldLow (ns : Nat) (s : State) : AnswersKeepingQueue (execResetnHeldLow ns s) s := by
  unfold execResetnHeldLow
  iterate 3 (split; · exact ⟨_, rfl, rfl⟩)
  exact ⟨_, rfl, rfl⟩

/-- Settles O2: by the kinds of command; every one not named is the taking of a request. -/
theorem everyCommandAnswersAndLeavesTheQueue : Obligations.EveryCommandAnswersAndLeavesTheQueue := by
  intro c s
  cases c with
  | powerOnReset => exact ⟨_, rfl, rfl⟩
  | resetnHeldLow ns => exact answers_resetnHeldLow ns s
  | signalDetected p => exact answers_unlessHeld (fun s => queueIs_keptByPortParts.detect p s rfl) s
  | lossOfSignal p => exact answers_closed (fun s => queueIs_keptByPortParts.lose p s rfl) s
  | alignmentWord | dataByte | codeViolation | startOfCell | headerComplete | keyComplete | endOfCell
  | headStartOfCell | headHeaderComplete | headEndOfCell => exact answers_symbolCommand _ _ s
  | transmitStart => exact answers_unlessHeld (fun s => queueIs_headGrant s rfl) s
  | transmitComplete => exact answers_closed (fun s => queueIs_headTxEnd .complete s rfl) s
  | tailTransmitStart => exact answers_unlessHeld (fun s => queueIs_tailStart s rfl) s
  | tailTransmitComplete => exact answers_closed (fun s => queueIs_tailTxEnd .complete s rfl) s
  | refillExpiry => exact answers_unlessHeld (fun s => queueIs_expireRefill s rfl) s
  | reportTimerExpiry b => exact answers_closed (fun s => queueIs_expireSequence b s rfl) s
  | lineTimeTick => exact answers_unlessHeld (fun s => queueIs_tick s rfl) s
  | _ => exact answers_takeKind _ _ _ _ s

end Sys2Proof.Machine
end

section
/-! PROOF. O60: each port's counts, its pin and its transmit pair stay legal, and it sends cells only while it is UP. A
symbol moves a port within its link state, takes it UP, or makes it leave UP; every other part of its event leaves the
ports alone, and a transmitter as it was, sending or IDLE. -/

namespace Sys2Proof.Machine

/-! ### Events that leave the ports alone -/

/-- Whether the Head transmitter sends a cell. -/
def HeadTx.busy : HeadTx → Bool
  | .idle => false
  | .sending _ _ => true

theorem HeadTx.busy_iff (tx : HeadTx) : tx.busy = true ↔ tx ≠ .idle := by
  cases tx <;> simp [HeadTx.busy]

/-- A cell that a device reset detaches is still sent (R131). -/
theorem HeadTx.busy_detachTransmission (tx : HeadTx) : (detachTransmission tx).busy = tx.busy := by
  cases tx <;> rfl

/-- The hold of RESETN, the ports, and whether the transmitters send. -/
def links (s : State) : Bool × Port × Port × Bool × TailTx :=
  (s.resetHeld, s.headPort, s.tailPort, s.headTx.busy, s.tailTx)

theorem links_occur (k : ReportKind) (n : Nat) (s : State) : links (occur k n s) = links s := by
  obtain ⟨_, _, _, h⟩ := occur_frame k n s
  rw [h]
  rfl

theorem links_deviceReset (s : State) : links (deviceReset s) = links s := by
  rw [deviceReset_eq]
  exact congrArg (fun busy => (s.resetHeld, s.headPort, s.tailPort, busy, s.tailTx))
    (HeadTx.busy_detachTransmission s.headTx)

theorem links_ownerAnswer (k : Kind) (args : List Byte) (s : State) : links (ownerAnswer k args s).st = links s := by
  by_cases hk : k = .statsClear
  · subst hk
    rfl
  · obtain ⟨_, _, _, _, _, _, _, _, _, _, _, h⟩ := ownerAnswer_frame hk args s
    rw [h]
    rfl

theorem links_keptByTakingParts (s : State) : KeptByTakingParts (fun u => links u = links s) where
  reset _ hs := (links_deviceReset _).trans hs
  owner _ _ _ hs := (links_ownerAnswer _ _ _).trans hs
  count _ _ _ hs := hs
  queue _ _ _ hs := hs
  store _ _ hs := hs

theorem links_takeRequest (f : Form) (code tag : Byte) (args : List Byte) (s : State) :
    links (takeRequest f code tag args s) = links s :=
  (links_keptByTakingParts s).take f code tag args s rfl

theorem links_takePayload (f : Form) (payload : List Byte) (s : State) : links (takePayload f payload s) = links s := by
  unfold takePayload
  split
  · exact links_takeRequest f _ _ _ s
  · rfl

theorem links_joinDownstream (c : Cell) (s : State) : links (joinDownstream c s) = links s := by
  obtain ⟨_, _, h⟩ := joinDownstream_frame c s
  rw [h]
  rfl

theorem links_acceptDownstream (cell : Cell) (s : State) : links (acceptDownstream cell s) = links s := by
  unfold acceptDownstream
  dsimp only
  split
  · exact links_takePayload _ _ _
  · exact links_joinDownstream _ _
  · exact (links_takePayload _ _ _).trans (links_joinDownstream _ _)

theorem links_headEnd (ok : Nat → List Byte → Bool) (s : State) : links (headEnd ok s) = links s := by
  unfold headEnd
  split
  · dsimp only
    split
    · rfl
    · split
      · exact links_acceptDownstream _ _
      · rfl
  · rfl
  · rfl

theorem links_tailEnd (ok : Nat → List Byte → Bool) (s : State) : links (tailEnd ok s) = links s := by
  obtain ⟨_, _, _, _, _, _, _, _, _, _, _, _, _, _, h⟩ := tailEnd_frame ok s
  rw [h]
  rfl

theorem links_startEvent (p : Side) (s : State) : links (startEvent p s) = links s := by
  cases p with
  | head =>
    obtain ⟨_, h⟩ := headStartOfCell_frame s
    rw [startEvent, h]
    rfl
  | tail =>
    obtain ⟨_, _, _, _, _, h⟩ := tailStartOfCell_frame s
    rw [startEvent, h]
    rfl

theorem links_byteEvent (p : Side) (b : Byte) (s : State) : links (byteEvent p b s) = links s := by
  cases p with
  | head =>
    obtain ⟨_, _, h⟩ := headByte_frame b s
    rw [byteEvent, h]
    rfl
  | tail =>
    obtain ⟨_, _, _, _, _, _, _, h⟩ := tailByte_frame b s
    rw [byteEvent, h]
    rfl

theorem links_endEvent (p : Side) (s : State) : links (endEvent p s) = links s := by
  cases p with
  | head => exact links_headEnd _ s
  | tail => exact links_tailEnd _ s

theorem links_failEvent (p : Side) (s : State) : links (failEvent p s) = links s := by
  cases p with
  | head => exact links_headEnd _ s
  | tail => exact links_tailEnd _ s

theorem links_abortEvent (p : Side) (s : State) : links (abortEvent p s) = links s := by
  cases p with
  | head =>
    obtain ⟨_, _, h⟩ := headAbort_frame s
    rw [abortEvent, h]
    rfl
  | tail =>
    obtain ⟨_, _, _, _, _, h⟩ := tailAbort_frame s
    rw [abortEvent, h]
    rfl

/-! ### The moves of a port -/

/-- A move of a port within its link state: its pin and its transmit pair stand, and its counts stay in their ranges. -/
structure MovesWithinLink (x x' : Port) : Prop where
  link : x'.link = x.link
  pin : x'.upPin = x.upPin
  driven : x'.txDriven = x.txDriven
  run : x.run ≤ 8 → x'.run ≤ 8
  violations : x.violations ≤ 2 → x'.violations ≤ 2

/-- The ways in which an event on a port reaches the ports and the transmitters (R184 to R189). -/
structure KeptByLinkMoves (Inv : State → Prop) : Prop where
  congr : ∀ {s u : State}, Inv s → links u = links s → Inv u
  within : ∀ (p : Side) (x : Port) (s : State), Inv s → MovesWithinLink (s.port p) x → Inv (s.setPort p x)
  relink : ∀ (p : Side) (after : LinkState) (run : Nat) (s : State), Inv s → (s.port p).link ≠ .up → after ≠ .up →
    run ≤ (s.port p).run → Inv (s.setPort p { s.port p with link := after, run := run })
  enter : ∀ (p : Side) (s : State), Inv s → Inv (enterUp p s)
  leave : ∀ (p : Side) (after : LinkState) (s : State), Inv s → after ≠ .up → Inv (leaveUp p after s)

namespace KeptByLinkMoves

variable {Inv : State → Prop} (h : KeptByLinkMoves Inv)
include h

/-- A move within the link state, and then an event that leaves the ports alone. -/
theorem moved {p : Side} {x : Port} {s u : State} (hs : Inv s) (hu : links u = links (s.setPort p x))
    (hx : MovesWithinLink (s.port p) x) : Inv u :=
  h.congr (h.within p x s hs hx) hu

theorem violation (p : Side) (after : FramingPosition) (s : State) (hs : Inv s) : Inv (framingViolation p after s) := by
  obtain hearly | hthird := (s.port p).violations.lt_or_ge 2
  · have hmoved : Inv (violated p after s) := h.within p _ s hs ⟨rfl, rfl, rfl, id, fun _ => hearly⟩
    rw [framingViolation_early hearly]
    split
    · exact h.congr hmoved (links_failEvent p _)
    · exact hmoved
  · rw [framingViolation_third hthird]
    exact h.leave p _ s hs (by decide)

theorem beginCell (p : Side) (s : State) (hs : Inv s) : Inv (beginCell p s) :=
  h.moved hs (links_startEvent p _) ⟨rfl, rfl, rfl, id, id⟩

theorem between (p : Side) (y : Symbol) (s : State) (hs : Inv s) : Inv (symbolBetween p y s) := by
  cases y with
  | alignment => exact hs
  | startDelimiter => exact h.beginCell p s hs
  | data | endDelimiter | violation => exact h.violation p _ s hs

theorem inCell (p : Side) (y : Symbol) (s : State) (hs : Inv s) : Inv (symbolInCell p y s) := by
  cases y with
  | data b =>
    unfold symbolInCell
    dsimp only
    split
    · exact h.violation p _ s hs
    · exact h.moved hs (links_byteEvent p b _) ⟨rfl, rfl, rfl, id, id⟩
  | violation => exact h.moved hs (links_byteEvent p 0 _) ⟨rfl, rfl, rfl, id, id⟩
  | endDelimiter => exact h.moved hs (links_endEvent p _) ⟨rfl, rfl, rfl, id, fun _ => Nat.zero_le _⟩
  | startDelimiter =>
    unfold symbolInCell
    dsimp only
    split
    · exact h.beginCell p _ (h.violation p _ s hs)
    · exact h.violation p _ s hs
  | alignment => exact h.violation p _ s hs

theorem hunting (p : Side) (y : Symbol) (s : State) (hs : Inv s) : Inv (symbolHunting p y s) := by
  cases y with
  | startDelimiter => exact h.beginCell p s hs
  | alignment => exact h.within p _ s hs ⟨rfl, rfl, rfl, id, id⟩
  | data | endDelimiter | violation => exact hs

theorem aligning (p : Side) (y : Symbol) (s : State) (hs : Inv s) : Inv (symbolAligning p y s) := by
  unfold symbolAligning
  dsimp only
  split
  · split
    · rename_i hrun
      exact h.within p _ s hs ⟨rfl, rfl, rfl, fun _ => hrun.le, id⟩
    · exact h.enter p s hs
  · exact h.within p _ s hs ⟨rfl, rfl, rfl, fun _ => Nat.zero_le _, id⟩

theorem receive (p : Side) (y : Symbol) (s : State) (hs : Inv s) : Inv (receive p y s) := by
  unfold Machine.receive
  split
  · exact hs
  · exact h.aligning p y s hs
  · split
    · exact h.between p y s hs
    · exact h.inCell p y s hs
    · exact h.hunting p y s hs

theorem detect (p : Side) (s : State) (hs : Inv s) : Inv (detectSignal p s) := by
  unfold detectSignal
  split
  · rename_i hdown
    exact h.relink p _ _ s hs (by simp [hdown]) (by decide) (Nat.zero_le _)
  · exact hs
  · exact hs

theorem lose (p : Side) (s : State) (hs : Inv s) : Inv (loseSignal p s) := by
  unfold loseSignal
  split
  · exact hs
  · rename_i haligning
    exact h.relink p _ _ s hs (by simp [haligning]) (by decide) le_rfl
  · exact h.leave p _ s hs (by decide)

end KeptByLinkMoves

/-! ### The ports of a running part -/

/-- What the legality of the ports is about. -/
def portView (s : State) : Bool × Port × Port := (s.resetHeld, s.headPort, s.tailPort)

/-- R182, R185, R186: RESETN does not hold the part, and both ports are legal. -/
structure RunningPortsLegal (s : State) : Prop where
  running : s.resetHeld = false
  legal : ∀ p : Side, portLegal false (s.port p)

theorem runningPortsLegal_iff {s : State} (h : s.resetHeld = false) : RunningPortsLegal s ↔ portsLegal s := by
  unfold portsLegal
  rw [h]
  refine ⟨fun hs => ⟨hs.legal .head, hs.legal .tail⟩, fun ⟨hhead, htail⟩ => ⟨h, fun p => ?_⟩⟩
  cases p
  · exact hhead
  · exact htail

theorem RunningPortsLegal.congr {s u : State} (hs : RunningPortsLegal s) (h : portView u = portView s) :
    RunningPortsLegal u := by
  simp only [portView, Prod.mk.injEq] at h
  obtain ⟨hheld, hhead, htail⟩ := h
  refine ⟨hheld.trans hs.running, fun p => ?_⟩
  cases p with
  | head =>
    show portLegal false u.headPort
    rw [hhead]
    exact hs.legal .head
  | tail =>
    show portLegal false u.tailPort
    rw [htail]
    exact hs.legal .tail

theorem RunningPortsLegal.setPort {s : State} (hs : RunningPortsLegal s) {p : Side} {x : Port}
    (hx : portLegal false x) : RunningPortsLegal (s.setPort p x) := by
  refine ⟨(State.setPort_resetHeld s p x).trans hs.running, fun q => ?_⟩
  rw [State.port_setPort]
  split
  · exact hx
  · exact hs.legal q

theorem portView_headTxEnd (e : TxEnd) (s : State) : portView (headTxEnd e s) = portView s := by
  unfold headTxEnd
  split
  · rfl
  · rename_i src cell _
    have hcut : portView { recordCut .head e cell s with headTx := .idle } = portView s := by cases e <;> rfl
    rw [← hcut]
    generalize ({ recordCut .head e cell s with headTx := .idle } : State) = u
    cases src with
    | urgent =>
      obtain ⟨_, _, _, h⟩ := endUrgent_frame e u
      dsimp only
      rw [h]
      rfl
    | normal =>
      obtain ⟨_, _, _, _, h⟩ := endNormal_frame e u
      dsimp only
      rw [h]
      rfl
    | reply =>
      obtain ⟨_, h | h⟩ := endReply_cases u
      all_goals
        dsimp only
        rw [h]
        rfl
    | report q => rfl
    | detached => rfl

theorem portView_tailTxEnd (e : TxEnd) (s : State) : portView (tailTxEnd e s) = portView s := by
  obtain ⟨_, _, _, _, _, h⟩ := tailTxEnd_frame e s
  rw [h]
  rfl

theorem portView_of_links {s u : State} (h : links u = links s) : portView u = portView s :=
  congrArg (fun l => (l.1, l.2.1, l.2.2.1)) h

/-- What leaves UP begins with the port alone; the parts that follow leave the ports as they stand (R186). -/
theorem portView_leaveUp (p : Side) (after : LinkState) (s : State) :
    portView (leaveUp p after s) = portView (unlinked p after s) := by
  have hended : portView (receptionEnded p after s) = portView (unlinked p after s) := by
    unfold receptionEnded
    split
    · exact portView_of_links (links_abortEvent p _)
    · rfl
  have hcut : portView (abortTransmission p (receptionEnded p after s)) = portView (receptionEnded p after s) := by
    cases p with
    | head => exact portView_headTxEnd .abort _
    | tail => exact portView_tailTxEnd .abort _
  rw [leaveUp_eq, portView_of_links (links_occur _ _ _), hcut, hended]

/-- A port that is not UP, with its pin released, is legal as far as its counts are (R184, R186). -/
theorem portLegal_of_released {x x' : Port} (h : portLegal false x) (hlink : x'.link ≠ .up) (hpin : x'.upPin = false)
    (hrun : x'.run ≤ x.run) (hviolations : x'.violations = x.violations) (hdriven : x'.txDriven = x.txDriven) :
    portLegal false x' := by
  obtain ⟨hx, hv, _, hd⟩ := h
  refine ⟨hrun.trans hx, hviolations ▸ hv, ⟨fun hh => ?_, fun ⟨hh, _⟩ => absurd hh hlink⟩, hdriven.trans hd⟩
  rw [hpin] at hh
  cases hh

theorem runningPortsLegal_keptByLinkMoves : KeptByLinkMoves RunningPortsLegal where
  congr hs h := hs.congr (portView_of_links h)
  within p x s hs hx := by
    obtain ⟨hrun, hviolations, hpin, hdriven⟩ := hs.legal p
    refine hs.setPort ⟨hx.run hrun, hx.violations hviolations, ?_, hx.driven.trans hdriven⟩
    rw [hx.pin, hx.link]
    exact hpin
  relink p after run s hs hnotUp hafter hrun := by
    obtain ⟨_, _, hpin, _⟩ := hs.legal p
    have hreleased : (s.port p).upPin = false := Bool.eq_false_iff.2 (fun hh => hnotUp (hpin.1 hh).1)
    exact hs.setPort (portLegal_of_released (hs.legal p) hafter hreleased hrun rfl rfl)
  enter p s hs := by
    obtain ⟨_, _, _, hdriven⟩ := hs.legal p
    have hup : portLegal false { s.port p with
        link := .up, run := 8, violations := 0, position := .between, upPin := true } :=
      ⟨le_rfl, Nat.zero_le _, ⟨fun _ => ⟨rfl, rfl⟩, fun _ => rfl⟩, hdriven⟩
    exact (hs.setPort hup).congr (portView_of_links (links_occur _ _ _))
  leave p after s hs hafter := by
    refine RunningPortsLegal.congr (s := unlinked p after s) ?_ (portView_leaveUp p after s)
    refine hs.setPort (portLegal_of_released (hs.legal p) hafter rfl ?_ rfl rfl)
    dsimp only
    split
    · exact Nat.zero_le _
    · exact le_rfl

/-! ### The commands and the ports -/

theorem portsLegal_unlessHeld {f : State → State} (hf : ∀ s, RunningPortsLegal s → RunningPortsLegal (f s)) {s : State}
    (hs : portsLegal s) : portsLegal (unlessHeld f s) := by
  unfold unlessHeld
  split
  · exact hs
  · rename_i hrun
    have hleft := hf s ((runningPortsLegal_iff (Bool.eq_false_iff.2 hrun)).2 hs)
    exact (runningPortsLegal_iff hleft.running).1 hleft

theorem runningPortsLegal_settle {s : State} (hs : RunningPortsLegal s) : RunningPortsLegal (settle s) := by
  obtain ⟨_, _, _, _, _, _, _, _, h⟩ := settle_frame s
  exact hs.congr (by rw [h]; rfl)

/-- An event with the decisions at its close (log 3). -/
theorem portsLegal_closed {f : State → State} (hf : ∀ s, RunningPortsLegal s → RunningPortsLegal (f s)) {s : State}
    (hs : portsLegal s) : portsLegal (unlessHeld (fun s => settle (f s)) s) :=
  portsLegal_unlessHeld (fun s h => runningPortsLegal_settle (hf s h)) hs

theorem portsLegal_symbolCommand {p : Side} {y : Symbol} {s t : State} (hs : portsLegal s)
    (he : symbolCommand p y s = .next t) : portsLegal t := by
  cases he
  exact portsLegal_closed (runningPortsLegal_keptByLinkMoves.receive p y) hs

theorem portsLegal_takeKind {k : Kind} {f : Form} {tag : Byte} {args : List Byte} {s t : State} (hs : portsLegal s)
    (he : takeKind k f tag args s = .next t) : portsLegal t := by
  cases he
  exact portsLegal_closed (fun s h => h.congr (portView_of_links (links_takeRequest f k.code tag args s))) hs

/-- A port whose pins RESETN silences is legal for a part that is held (R210). -/
theorem portLegal_silenced {held : Bool} {x : Port} (h : portLegal held x) : portLegal true x.silenced := by
  obtain ⟨hrun, hviolations, _, _⟩ := h
  exact ⟨hrun, hviolations, ⟨fun hh => (by cases hh), fun hh => (by cases hh.2)⟩, rfl⟩

theorem portsLegal_resetnHeldLow {ns : Nat} {s t : State} (hs : portsLegal s) (he : execResetnHeldLow ns s = .next t) :
    portsLegal t := by
  have ⟨hhead, htail⟩ := hs
  unfold execResetnHeldLow at he
  split at he
  · cases he
    exact hs
  · split at he
    · cases he
      exact ⟨portLegal_silenced hhead, portLegal_silenced htail⟩
    · split at he
      · cases he
        exact ⟨portLegal_silenced hhead, portLegal_silenced htail⟩
      · cases he
        exact hs

theorem runningPortsLegal_expireSequence (q : Byte) {s : State} (hs : RunningPortsLegal s) :
    RunningPortsLegal (expireSequence q s) := by
  obtain ⟨_, _, h⟩ := expireSequence_frame q s
  exact hs.congr (by rw [h]; rfl)

theorem runningPortsLegal_expireRefill {s : State} (hs : RunningPortsLegal s) : RunningPortsLegal (expireRefill s) := by
  obtain ⟨_, _, h⟩ := expireRefill_frame s
  exact hs.congr (by rw [h]; rfl)

theorem runningPortsLegal_expireEach (l : List Byte) {s : State} (hs : RunningPortsLegal s) :
    RunningPortsLegal (expireEach l s) := by
  induction l generalizing s with
  | nil => exact hs
  | cons q l ih => exact ih (runningPortsLegal_settle (runningPortsLegal_expireSequence q hs))

theorem runningPortsLegal_tick {s : State} (hs : RunningPortsLegal s) :
    RunningPortsLegal (advanceTime (expireOverdue (expireRefill s))) :=
  (runningPortsLegal_expireEach (overdueSequences (expireRefill s)) (runningPortsLegal_expireRefill hs)).congr rfl

/-- Every command is a reset, or an event of a part that RESETN does not hold; one not named is the taking of a
request. -/
theorem portsLegal_exec (c : Instr) {s t : State} (hs : portsLegal s) (he : exec c s = .next t) : portsLegal t := by
  cases c with
  | powerOnReset =>
    cases he
    exact ⟨portLegal_resetValue, portLegal_resetValue⟩
  | resetnHeldLow ns => exact portsLegal_resetnHeldLow hs he
  | signalDetected p =>
    cases he
    exact portsLegal_unlessHeld (runningPortsLegal_keptByLinkMoves.detect p) hs
  | lossOfSignal p =>
    cases he
    exact portsLegal_closed (runningPortsLegal_keptByLinkMoves.lose p) hs
  | alignmentWord | dataByte | codeViolation | startOfCell | headerComplete | keyComplete | endOfCell
  | headStartOfCell | headHeaderComplete | headEndOfCell => exact portsLegal_symbolCommand hs he
  | transmitStart =>
    cases he
    refine portsLegal_unlessHeld (fun s h => ?_) hs
    obtain ⟨_, _, _, _, _, _, _, hgrant⟩ := headGrant_frame s
    exact h.congr (by rw [hgrant]; rfl)
  | transmitComplete =>
    cases he
    exact portsLegal_closed (fun s h => h.congr (portView_headTxEnd .complete s)) hs
  | tailTransmitStart =>
    cases he
    refine portsLegal_unlessHeld (fun s h => ?_) hs
    obtain ⟨_, hstart⟩ := tailStart_frame s
    exact h.congr (by rw [hstart]; rfl)
  | tailTransmitComplete =>
    cases he
    exact portsLegal_closed (fun s h => h.congr (portView_tailTxEnd .complete s)) hs
  | refillExpiry =>
    cases he
    exact portsLegal_unlessHeld (fun _ h => runningPortsLegal_expireRefill h) hs
  | reportTimerExpiry q =>
    cases he
    exact portsLegal_closed (fun _ h => runningPortsLegal_expireSequence q h) hs
  | lineTimeTick =>
    cases he
    exact portsLegal_unlessHeld (fun _ h => runningPortsLegal_tick h) hs
  | _ => exact portsLegal_takeKind hs he

/-! ### The transmitters -/

/-- R183: the transmitter of a port sends a cell. -/
def State.transmits (p : Side) (s : State) : Prop :=
  match p with
  | .head => s.headTx ≠ .idle
  | .tail => s.tailTx = .sending

theorem sendsCellsWhileUp_iff (s : State) :
    sendsCellsWhileUp s ↔ ∀ p : Side, s.transmits p → (s.port p).link = .up :=
  ⟨fun ⟨hhead, htail⟩ p => by cases p; exacts [hhead, htail], fun h => ⟨h .head, h .tail⟩⟩

theorem transmits_setPort (s : State) (p q : Side) (x : Port) : (s.setPort p x).transmits q ↔ s.transmits q := by
  cases p <;> cases q <;> exact Iff.rfl

theorem sendsCellsWhileUp_congr {s u : State} (hs : sendsCellsWhileUp s) (h : links u = links s) :
    sendsCellsWhileUp u := by
  simp only [links, Prod.mk.injEq] at h
  obtain ⟨_, hhead, htail, hheadTx, htailTx⟩ := h
  obtain ⟨hheadUp, htailUp⟩ := hs
  rw [← HeadTx.busy_iff] at hheadUp
  refine ⟨fun hbusy => ?_, fun hsending => ?_⟩
  · rw [← HeadTx.busy_iff, hheadTx] at hbusy
    rw [hhead]
    exact hheadUp hbusy
  · rw [htail]
    exact htailUp (htailTx.symm.trans hsending)

/-- A port may move as long as it stays UP where its transmitter sends. -/
theorem sendsCellsWhileUp_setPort {s : State} (hs : sendsCellsWhileUp s) {p : Side} {x : Port}
    (hx : s.transmits p → x.link = .up) : sendsCellsWhileUp (s.setPort p x) := by
  rw [sendsCellsWhileUp_iff] at hs ⊢
  intro q hq
  rw [transmits_setPort] at hq
  rw [State.port_setPort]
  split
  · rename_i hpq
    subst hpq
    exact hx hq
  · exact hs q hq

/-- A port that leaves UP leaves its transmitter IDLE, and the other port alone (R186). -/
theorem sendsCellsWhileUp_leaveUp (p : Side) (after : LinkState) {s : State} (hs : sendsCellsWhileUp s) :
    sendsCellsWhileUp (leaveUp p after s) := by
  obtain ⟨hhead, htail⟩ := hs
  cases p with
  | head =>
    obtain ⟨_, htailTx, hidle⟩ := leaveUp_head_keeps after s
    have hport : (leaveUp .head after s).tailPort = s.tailPort := leaveUp_port .head .tail after s
    exact ⟨fun hbusy => absurd hidle hbusy, fun hsending => hport ▸ htail (htailTx.symm.trans hsending)⟩
  | tail =>
    obtain ⟨_, _, _, _, hheadTx, hidle⟩ := leaveUp_tail_keeps after s
    have hport : (leaveUp .tail after s).headPort = s.headPort := leaveUp_port .tail .head after s
    exact ⟨fun hbusy => hport ▸ hhead (hheadTx ▸ hbusy), fun hsending => (by cases hidle.symm.trans hsending)⟩

theorem sendsCellsWhileUp_keptByLinkMoves : KeptByLinkMoves sendsCellsWhileUp where
  congr := sendsCellsWhileUp_congr
  within p _ s hs hx :=
    sendsCellsWhileUp_setPort hs (fun hsends => hx.link.trans ((sendsCellsWhileUp_iff s).1 hs p hsends))
  relink p _ _ s hs hnotUp _ _ :=
    sendsCellsWhileUp_setPort hs (fun hsends => absurd ((sendsCellsWhileUp_iff s).1 hs p hsends) hnotUp)
  enter _ _ hs := sendsCellsWhileUp_congr (sendsCellsWhileUp_setPort hs (fun _ => rfl)) (links_occur _ _ _)
  leave p after _ hs _ := sendsCellsWhileUp_leaveUp p after hs

/-- A grant is made only while the Head port is UP (R120). -/
theorem sendsCellsWhileUp_headGrant (s : State) (hs : sendsCellsWhileUp s) : sendsCellsWhileUp (headGrant s) := by
  by_cases hup : s.headPort.link = .up
  · obtain ⟨_, _, _, _, _, _, _, h⟩ := headGrant_frame s
    obtain ⟨_, htail⟩ := hs
    rw [h]
    exact ⟨fun _ => hup, htail⟩
  · rw [headGrant_none (.inr (.inl hup))]
    exact hs

/-- The Tail transmitter starts only while the Tail port is UP (R196). -/
theorem sendsCellsWhileUp_tailStart (s : State) (hs : sendsCellsWhileUp s) : sendsCellsWhileUp (tailStart s) := by
  unfold tailStart
  split
  · rename_i hstart
    obtain ⟨_, hup, _⟩ := hstart
    obtain ⟨hhead, _⟩ := hs
    exact ⟨hhead, fun _ => hup⟩
  · exact hs

theorem sendsCellsWhileUp_keptByEvents : KeptByEvents sendsCellsWhileUp where
  pending _ _ hs := hs
  powerOn _ _ := ⟨fun hbusy => absurd rfl hbusy, fun hsending => (by cases hsending)⟩
  hold _ hs := hs
  freeIndex _ _ hs := hs
  grant := sendsCellsWhileUp_headGrant
  start := sendsCellsWhileUp_tailStart
  headTx e s hs := by
    obtain ⟨_, htailUp⟩ := hs
    obtain ⟨_, hport, _, htailTx, hidle⟩ := headTxEnd_keeps e s
    exact ⟨fun hbusy => absurd hidle hbusy, fun hsending => hport ▸ htailUp (htailTx.symm.trans hsending)⟩
  tailTx e s hs := by
    obtain ⟨hheadUp, _⟩ := hs
    obtain ⟨_, hport, _, _, _, _, hheadTx, hidle⟩ := tailTxEnd_keeps e s
    exact ⟨fun hbusy => hport ▸ hheadUp (hheadTx ▸ hbusy), fun hsending => (by cases hidle.symm.trans hsending)⟩
  symbol := sendsCellsWhileUp_keptByLinkMoves.receive
  detect := sendsCellsWhileUp_keptByLinkMoves.detect
  lose := sendsCellsWhileUp_keptByLinkMoves.lose
  take f code tag args s hs := sendsCellsWhileUp_congr hs (links_takeRequest f code tag args s)
  refill s hs := by
    obtain ⟨_, _, h⟩ := expireRefill_frame s
    exact sendsCellsWhileUp_congr hs (by rw [h]; rfl)
  expire q s hs := by
    obtain ⟨_, _, h⟩ := expireSequence_frame q s
    exact sendsCellsWhileUp_congr hs (by rw [h]; rfl)
  advance _ hs := hs

/-- Settles O60: the ports by the command that runs, since no event of a held part may drive a pin; what is sent by the
events. -/
theorem stepKeepsThePortsLegal : Obligations.StepKeepsThePortsLegal := by
  refine ⟨fun s t hs he => ?_, fun s t hs he => sendsCellsWhileUp_keptByEvents.step s t hs he⟩
  unfold step at he
  split at he
  · cases he
    exact hs
  · rename_i q _
    exact portsLegal_exec _ (s := { s with pending := q }) hs he

end Sys2Proof.Machine
end

section
/-! PROOF. O42: signal and the run of alignment words that brings a port UP. -/

namespace Sys2Proof.Machine

theorem exec_signalDetected {s : State} (h : s.resetHeld = false) (p : Side) :
    exec (.signalDetected p) s = .next (detectSignal p s) :=
  congrArg Host.Outcome.next (unlessHeld_running h _)

/-- Signal moves a DOWN port alone (R184). -/
theorem detectSignal_eq (p : Side) (s : State) : detectSignal p s =
    if (s.port p).link = .down then s.setPort p { s.port p with link := .aligning, run := 0 } else s := by
  unfold detectSignal
  cases (s.port p).link <;> rfl

theorem linkSubject_eq (p : Side) : linkSubject p = if p = .head then 0 else 1 := by
  cases p <;> rfl

theorem receive_down {p : Side} {s : State} (h : (s.port p).link = .down) (y : Symbol) : receive p y s = s := by
  simp only [receive, h]

theorem receive_aligning {p : Side} {s : State} (h : (s.port p).link = .aligning) (y : Symbol) :
    receive p y s = symbolAligning p y s := by
  simp only [receive, h]

/-- An alignment word that is not the eighth in a row raises the run (R184). -/
theorem symbolAligning_word {p : Side} {s : State} (h : (s.port p).run < 7) :
    symbolAligning p .alignment s = s.setPort p { s.port p with run := (s.port p).run + 1 } := by
  unfold symbolAligning
  dsimp only
  rw [if_pos rfl, if_pos (by omega)]

/-- The eighth takes the port UP (R185). -/
theorem symbolAligning_eighth {p : Side} {s : State} (h : 7 ≤ (s.port p).run) :
    symbolAligning p .alignment s = enterUp p s := by
  unfold symbolAligning
  dsimp only
  rw [if_pos rfl, if_neg (by omega)]

/-- Any other symbol breaks the run (R184). -/
theorem symbolAligning_other {p : Side} {s : State} {y : Symbol} (h : y ≠ .alignment) :
    symbolAligning p y s = s.setPort p { s.port p with run := 0 } :=
  if_neg h

/-- Settles O42: signal at a port, and the symbols of a port that is ALIGNING or DOWN. -/
theorem eightAlignmentWordsBringAPortUp : Obligations.EightAlignmentWordsBringAPortUp := by
  intro p s x hrun hx
  subst hx
  refine ⟨(exec_signalDetected hrun p).trans (congrArg Host.Outcome.next (detectSignal_eq p s)),
    fun haligning => ⟨fun hword => ?_, fun heighth => ?_, fun y hy => ?_⟩, fun hdown y => ?_⟩
  · refine (symbolCommand_running hrun p .alignment).trans (next_settle_congr ?_)
    rw [receive_aligning haligning, symbolAligning_word hword]
  · refine (symbolCommand_running hrun p .alignment).trans (next_settle_congr ?_)
    rw [receive_aligning haligning, symbolAligning_eighth heighth, enterUp, linkSubject_eq]
  · refine (exec_symbolOf hrun p y).trans (next_settle_congr ?_)
    rw [receive_aligning haligning, symbolAligning_other hy]
  · exact (exec_symbolOf hrun p y).trans (next_settle_congr (receive_down hdown y))

end Sys2Proof.Machine
end

section
/-! PROOF. O46 and O47: the cells that arrive on Head, one equation per event of the Head receive side and per
outcome of the downstream test. -/

namespace Sys2Proof.Machine

/-! ### Header-complete on Head -/

/-- The sixth byte brings header-complete (R193). -/
theorem headByte_sixth {s : State} {five : List Byte} (hx : s.headRx = .receiving five) (h5 : five.length = 5)
    (b : Byte) : headByte b s = headHeaderComplete (five ++ [b]) { s with headRx := .receiving (five ++ [b]) } := by
  simp [headByte, hx, h5]

/-- A bad header is counted, and the cell passes in DISCARDING (R193). -/
theorem headByte_badHeader {s : State} {five : List Byte} {b : Byte} (hx : s.headRx = .receiving five)
    (h5 : five.length = 5)
    (h : s.headPort.cellBad = true ∨ b ≠ headerCheck five ∨ 48 < (headerOf (five ++ [b])).length) :
    headByte b s = { s with
      headRx := .discarding
      stats := { s.stats with badDown := s.stats.badDown + 1 } } := by
  rw [headByte_sixth hx h5]
  rw [ne_eq, ← headerCheckPasses_iff h5] at h
  exact if_pos (by simpa [or_assoc] using h)

/-- A good header lets the cell go on (R193). -/
theorem headByte_goodHeader {s : State} {five : List Byte} {b : Byte} (hx : s.headRx = .receiving five)
    (h5 : five.length = 5) (hclean : s.headPort.cellBad = false) (hcheck : b = headerCheck five)
    (hlen : (headerOf (five ++ [b])).length ≤ 48) :
    headByte b s = { s with headRx := .receiving (five ++ [b]) } := by
  rw [← headerCheckPasses_iff h5] at hcheck
  rw [headByte_sixth hx h5]
  exact if_neg (by simp [hclean, hcheck, hlen])

/-! ### End-of-cell on Head -/

theorem headEnd_discarding {ok : Nat → List Byte → Bool} {s : State} (hx : s.headRx = .discarding) :
    headEnd ok s = { s with headRx := .idle } := by
  simp only [headEnd, hx]

/-- A cell of fewer than 6 bytes, or whose payload check fails, is counted bad (R193). -/
theorem headEnd_failed {ok : Nat → List Byte → Bool} {s : State} {buf : List Byte} (hx : s.headRx = .receiving buf)
    (h : buf.length < 6 ∨ ok (headerOf buf).length buf = false) :
    headEnd ok s = { s with
      headRx := .idle
      stats := { s.stats with badDown := s.stats.badDown + 1 } } := by
  simp only [headEnd, hx]
  obtain hshort | hbad := h
  · exact if_pos hshort
  · rw [hbad]
    exact ite_self _

/-- A good cell is accepted (R193). -/
theorem headEnd_good {ok : Nat → List Byte → Bool} {s : State} {buf : List Byte} (hx : s.headRx = .receiving buf)
    (hlen : 6 ≤ buf.length) (hgood : ok (headerOf buf).length buf = true) :
    headEnd ok s = acceptDownstream buf { s with headRx := .idle } := by
  simp only [headEnd, hx, hgood, if_neg (Nat.not_lt.2 hlen), if_true]

/-! ### Symbols within a cell on Head -/

section
variable {s : State} (hrun : s.resetHeld = false) (hup : s.headPort.link = .up) (hin : s.headPort.position = .inCell)
include hrun hup hin

/-- A symbol within a cell on Head is handled by the table of R188, with the decisions at its close. -/
theorem symbolCommand_head_inCell (y : Symbol) :
    symbolCommand .head y s = .next (settle (symbolInCell .head y s)) :=
  (symbolCommand_running hrun .head y).trans (next_settle_congr (receive_inCell (p := .head) hup hin y))

/-- A data byte within a cell on Head, under either of its commands (R188; log 1). -/
theorem exec_headHeaderComplete_inCell (hroom : s.headPort.cellBytes < 56) (b : Byte) :
    exec (.headHeaderComplete b) s = .next (settle (headByte b
      { s with headPort := { s.headPort with cellBytes := s.headPort.cellBytes + 1 } })) :=
  (symbolCommand_head_inCell hrun hup hin (.data b)).trans
    (next_settle_congr (symbolInCell_data (p := .head) hroom b))

/-- A code violation within a cell on Head stands as 0x00 and marks the cell bad (R190). -/
theorem exec_codeViolation_head : exec (.codeViolation .head) s = .next (settle (headByte 0
    { s with headPort := { s.headPort with cellBytes := s.headPort.cellBytes + 1, cellBad := true } })) :=
  symbolCommand_head_inCell hrun hup hin .violation

/-- The end delimiter of a cell on Head is its end-of-cell (R188). -/
theorem exec_headEndOfCell_inCell : exec .headEndOfCell s = .next (settle (headEnd
    (payloadPasses s.headPort.cellBytes s.headPort.cellBad)
    { s with headPort := { s.headPort with violations := 0, position := .between } })) :=
  symbolCommand_head_inCell hrun hup hin .endDelimiter

end

/-! ### O46 -/

theorem exec_headStartOfCell {s : State} (hrun : s.resetHeld = false) (hup : s.headPort.link = .up)
    (hpos : s.headPort.position = .between ∨ s.headPort.position = .hunting) (hidle : s.headRx = .idle) :
    exec .headStartOfCell s = .next (settle (cellBegun .head s)) := by
  refine (exec_symbolOf hrun .head .startDelimiter).trans (next_settle_congr ?_)
  rw [receive_startDelimiter (p := .head) hup hpos, beginCell_begun .head s (fun _ => hidle) (fun h => by cases h)]

/-- Settles O46: the start of a cell on Head, its sixth byte, and the two ends that accept no cell. -/
theorem headReceivesACell : Obligations.HeadReceivesACell := by
  intro b s x hrun hx hup
  subst hx
  refine ⟨exec_headStartOfCell hrun hup, fun hin hroom five hrx h5 => ⟨rfl, ?_, fun hbad => ?_,
    fun hclean hcheck hlen => ?_⟩, fun hin s1 hs1 => ⟨fun hrx => ?_, fun buf hrx hbad => ?_⟩⟩
  · exact (exec_codeViolation_head hrun hup hin).trans (next_settle_congr (headByte_badHeader hrx h5 (.inl rfl)))
  · exact (exec_headHeaderComplete_inCell hrun hup hin hroom b).trans
      (next_settle_congr (headByte_badHeader hrx h5 hbad))
  · exact (exec_headHeaderComplete_inCell hrun hup hin hroom b).trans
      (next_settle_congr (headByte_goodHeader hrx h5 hclean hcheck hlen))
  · subst hs1
    exact (exec_headEndOfCell_inCell hrun hup hin).trans (next_settle_congr (headEnd_discarding hrx))
  · rw [← payloadPasses_iff, Bool.not_eq_true] at hbad
    subst hs1
    exact (exec_headEndOfCell_inCell hrun hup hin).trans (next_settle_congr (headEnd_failed hrx hbad))

/-! ### The downstream test (R194) -/

section
variable {h : Header} {addr : Option Byte}

/-- A cell that is no request for the part is forwarded (R194). -/
theorem downstreamTest_forward
    (hother : h.kind ≠ 3 ∨ (h.dest ≠ 0xFF ∧ addr ≠ some h.dest ∧ (h.dest ≠ 0xFE ∨ addr ≠ none))) :
    downstreamTest h addr = .forward := by
  unfold downstreamTest
  by_cases hkind : h.kind = kindMgmtReq
  · obtain ⟨hdest, haddr, hnone⟩ := hother.resolve_left (· hkind)
    rw [if_neg (not_not.2 hkind), if_neg hdest, if_neg haddr, if_neg (not_and_or.2 hnone)]
  · exact if_pos hkind

/-- A request to the part's address, or to 0xFE while it has none, is taken (R194). -/
theorem downstreamTest_take (hkind : h.kind = kindMgmtReq) (hdest : h.dest ≠ 0xFF)
    (haddr : addr = some h.dest ∨ (h.dest = 0xFE ∧ addr = none)) : downstreamTest h addr = .take := by
  unfold downstreamTest
  rw [if_neg (not_not.2 hkind), if_neg hdest]
  split
  · rfl
  · rename_i hother
    exact if_pos (haddr.resolve_left hother)

/-- A broadcast request is forwarded and taken (R194). -/
theorem downstreamTest_broadcast (hkind : h.kind = kindMgmtReq) (hdest : h.dest = 0xFF) :
    downstreamTest h addr = .forwardAndTake := by
  unfold downstreamTest
  rw [if_neg (not_not.2 hkind), if_pos hdest]

end

/-! ### What becomes of an accepted cell (R194, R195) -/

section
variable {cell : Cell} {s : State}

theorem acceptDownstream_forward (h : downstreamTest (headerOf cell) s.nodeAddress = .forward) :
    acceptDownstream cell s = joinDownstream cell (s.count .received) := by
  simp only [acceptDownstream, h]

theorem acceptDownstream_take (h : downstreamTest (headerOf cell) s.nodeAddress = .take) :
    acceptDownstream cell s = takePayload .addressed (payloadOf cell (headerOf cell).length)
      ((s.count .received).count .taken) := by
  simp only [acceptDownstream, h]

theorem acceptDownstream_broadcast (h : downstreamTest (headerOf cell) s.nodeAddress = .forwardAndTake) :
    acceptDownstream cell s = takePayload .broadcast (payloadOf cell (headerOf cell).length)
      (joinDownstream cell ((s.count .received).count .taken)) := by
  simp only [acceptDownstream, h]

theorem joinDownstream_room (h : s.downQueue.length < 4) :
    joinDownstream cell s = { s with downQueue := s.downQueue ++ [cell] } :=
  if_pos h

theorem joinDownstream_full (h : 4 ≤ s.downQueue.length) : joinDownstream cell s = s.count .droppedDown :=
  if_neg (Nat.not_lt.2 h)

/-- The two outcomes of the queue in one equation (R195). -/
theorem joinDownstream_eq (cell : Cell) (s : State) : joinDownstream cell s = { s with
    downQueue := if s.downQueue.length < 4 then s.downQueue ++ [cell] else s.downQueue
    stats := { s.stats with
      droppedDown := s.stats.droppedDown + if s.downQueue.length < 4 then 0 else 1 } } := by
  obtain hroom | hfull := s.downQueue.length.lt_or_ge 4
  · rw [joinDownstream_room hroom, if_pos hroom, if_pos hroom, add_zero]
  · rw [joinDownstream_full hfull, if_neg (Nat.not_lt.2 hfull), if_neg (Nat.not_lt.2 hfull)]
    rfl

end

/-! ### O47 -/

/-- Settles O47: a good cell is accepted, and the downstream test says what becomes of it. -/
theorem goodHeadCellIsForwardedOrTaken : Obligations.GoodHeadCellIsForwardedOrTaken := by
  intro s s1 buf payload h hrun hup hin hrx hlen hh hgood hpayload hs1
  subst hh hpayload hs1
  have haccept : exec .headEndOfCell s = .next (settle (acceptDownstream buf { s with
      headPort := { s.headPort with violations := 0, position := .between }, headRx := .idle })) :=
    (exec_headEndOfCell_inCell hrun hup hin).trans
      (next_settle_congr (headEnd_good hrx hlen ((payloadPasses_iff _ _ _ _).2 hgood)))
  rw [haccept]
  refine ⟨fun hother => ⟨fun hroom => next_settle_congr ?_, fun hfull => next_settle_congr ?_⟩,
    fun hkind hdest haddr => next_settle_congr ?_, fun hkind hdest s2 hs2 => next_settle_congr ?_⟩
  · refine (acceptDownstream_forward ?_).trans (joinDownstream_room hroom)
    exact downstreamTest_forward hother
  · refine (acceptDownstream_forward ?_).trans (joinDownstream_full hfull)
    exact downstreamTest_forward hother
  · refine acceptDownstream_take ?_
    exact downstreamTest_take hkind hdest haddr
  · subst hs2
    refine (acceptDownstream_broadcast ?_).trans (congrArg _ (joinDownstream_eq _ _))
    exact downstreamTest_broadcast hkind hdest

end Sys2Proof.Machine
end

section
/-! PROOF. O49: the Tail transmitter. -/

namespace Sys2Proof.Machine

theorem exec_tailTransmitComplete {s : State} (h : s.resetHeld = false) :
    exec .tailTransmitComplete s = .next (settle (tailTxEnd .complete s)) :=
  congrArg Host.Outcome.next (unlessHeld_running h _)

theorem tailStart_starts {s : State} (hidle : s.tailTx = .idle) (hup : s.tailPort.link = .up)
    (hqueue : s.downQueue ≠ []) : tailStart s = { s with tailTx := .sending } :=
  if_pos ⟨hidle, hup, hqueue⟩

theorem tailStart_none {s : State} (h : s.tailTx = .sending ∨ s.tailPort.link ≠ .up ∨ s.downQueue = []) :
    tailStart s = s := by
  refine if_neg (fun ⟨hidle, hup, hqueue⟩ => ?_)
  obtain hsending | hlink | hempty := h
  · cases hidle.symm.trans hsending
  · exact hlink hup
  · exact hqueue hempty

/-- The oldest cell of the downstream queue has been sent (R196). -/
theorem tailTxEnd_complete {c : Cell} {rest : List Cell} {s : State} (htx : s.tailTx = .sending)
    (hq : s.downQueue = c :: rest) : tailTxEnd .complete s = { s with
      tailTx := .idle
      downQueue := rest
      stats := { s.stats with forwardedDown := s.stats.forwardedDown + 1 } } := by
  simp only [tailTxEnd, htx, hq]
  rfl

/-- Settles O49: the start, the cases in which none is due, and the end of a transmission. -/
theorem tailTransmitterSendsTheOldestCell : Obligations.TailTransmitterSendsTheOldestCell := by
  intro s hrun
  rw [exec_tailTransmitStart hrun, exec_tailTransmitComplete hrun]
  exact ⟨fun hidle hup hqueue => congrArg Host.Outcome.next (tailStart_starts hidle hup hqueue),
    fun h => congrArg Host.Outcome.next (tailStart_none h),
    fun htx c rest hq => next_settle_congr (tailTxEnd_complete htx hq)⟩

end Sys2Proof.Machine
end

section
/-! PROOF. O3: the commands of a part that RESETN holds. -/

namespace Sys2Proof.Machine

/-! ### Events of a running part -/

/-- What a command does is an event, acted on while RESETN does not hold the part (R210). -/
def ActsUnlessHeld (r : State → Result) : Prop := ∃ f : State → State, ∀ s, r s = .next (unlessHeld f s)

theorem unlessHeld_held {s : State} (h : s.resetHeld = true) (f : State → State) : unlessHeld f s = s :=
  if_pos h

theorem ActsUnlessHeld.held {r : State → Result} (hr : ActsUnlessHeld r) {s : State} (h : s.resetHeld = true) :
    r s = .next s := by
  obtain ⟨f, hf⟩ := hr
  exact (hf s).trans (congrArg Host.Outcome.next (unlessHeld_held h f))

theorem actsUnlessHeld_unlessHeld (f : State → State) : ActsUnlessHeld fun s => .next (unlessHeld f s) :=
  ⟨f, fun _ => rfl⟩

theorem actsUnlessHeld_symbolCommand (p : Side) (y : Symbol) : ActsUnlessHeld (symbolCommand p y) :=
  actsUnlessHeld_unlessHeld _

theorem actsUnlessHeld_takeKind (k : Kind) (f : Form) (tag : Byte) (args : List Byte) :
    ActsUnlessHeld (takeKind k f tag args) :=
  actsUnlessHeld_unlessHeld _

/-- Every command but the two of RESETN is an event of a running part: of the time base, a transmitter or a port, or the
taking of a request. -/
theorem actsUnlessHeld_exec (c : Instr) (hrelease : c ≠ .powerOnReset) (hlow : ∀ ns, c ≠ .resetnHeldLow ns) :
    ActsUnlessHeld (exec c) := by
  cases c with
  | powerOnReset => exact absurd rfl hrelease
  | resetnHeldLow ns => exact absurd rfl (hlow ns)
  | signalDetected | lossOfSignal | transmitStart | transmitComplete | tailTransmitStart | tailTransmitComplete
  | refillExpiry | reportTimerExpiry | lineTimeTick => exact actsUnlessHeld_unlessHeld _
  | alignmentWord | dataByte | codeViolation | startOfCell | headerComplete | keyComplete | endOfCell
  | headStartOfCell | headHeaderComplete | headEndOfCell => exact actsUnlessHeld_symbolCommand _ _
  | _ => exact actsUnlessHeld_takeKind _ _ _ _

/-- Settles O3: what such a command does is an event, and a held part acts on none. -/
theorem nothingActsWhileResetIsHeld : Obligations.NothingActsWhileResetIsHeld :=
  fun c _ hheld hrelease hlow => (actsUnlessHeld_exec c hrelease hlow).held hheld

end Sys2Proof.Machine
end

section
/-! PROOF. O6: a low pulse on RESETN. -/

namespace Sys2Proof.Machine

section
variable {ns : Nat} {s : State}

/-- A pulse that the filter takes away (R210). -/
theorem exec_resetnHeldLow_filtered (h : ns < 100) : exec (.resetnHeldLow ns) s = .next s :=
  if_pos h

/-- A pulse that resets the part (R210). -/
theorem exec_resetnHeldLow_resets (h : 1000 ≤ ns) : exec (.resetnHeldLow ns) s = .next (holdReset s) := by
  have hlong : ¬ ns < 100 := by omega
  exact (if_neg hlong).trans (if_pos h)

/-- A pulse between the two figures of R210 raises the index, and the free value says whether it resets (log 11). -/
theorem exec_resetnHeldLow_between (hlow : 100 ≤ ns) (hhigh : ns < 1000) : exec (.resetnHeldLow ns) s =
    if Config.shortPulseResets s.freeIndex ns then .next (holdReset { s with freeIndex := s.freeIndex + 1 })
    else .next { s with freeIndex := s.freeIndex + 1 } :=
  (if_neg (Nat.not_lt.2 hlow)).trans (if_neg (Nat.not_le.2 hhigh))

end

/-- Settles O6: the three ranges of the pulse, the middle one by the free value. -/
theorem resetnLowHoldsThePartInReset : Obligations.ResetnLowHoldsThePartInReset := by
  intro ns s held hheld
  subst hheld
  refine ⟨exec_resetnHeldLow_filtered, exec_resetnHeldLow_resets, fun hlow hhigh => ?_⟩
  rw [exec_resetnHeldLow_between hlow hhigh]
  split
  · exact .inr rfl
  · exact .inl rfl

end Sys2Proof.Machine
end
